-- ==== Sys2Proof/Word.lean ====
section
/-! DEFINITION. The words of the ZV3612's telegrams and tables: bytes, two-byte fields and the CRC-32 register. -/

namespace Sys2Proof

/-- One byte of a telegram or of a table record. -/
abbrev Byte := BitVec 8

/-- A field of two bytes: tags, designations, counts, the CRC-16. -/
abbrev Half := BitVec 16

/-- A field of four bytes: the table CRC-32. -/
abbrev Crc := BitVec 32

/-- The base tick count wraps from 3,839,999 to 0 (R57). -/
def tickWrap : Nat := 3840000

end Sys2Proof
end

