-- ==== Sys2Proof/Config.lean ====
section
/-! DEFINITION. What the manual leaves open, as constants with no body: nothing in Lean can evaluate one or prove a
value of it, so a claim holds for every choice. -/

namespace Sys2Proof

/-- The fields of reads and reports whose byte encoding section 12.7 does not give (log entry 10). -/
inductive OpenField where
  | originNone | originControl | originNeighbour1 | originNeighbour2
  | owningContext | timerIndex | timerRate | lastThrow | claimedPosition | borderPoint | reference
  | transState | lastKindNone | modeNone | latches | reportMask
  deriving DecidableEq, Repr

/-- FREE VALUE (log entry 10). The bytes of a field whose encoding the manual does not give; the number carries the
field's value. -/
opaque Config.openBytes : OpenField → Nat → List Byte

/-- FREE VALUE (log entry 11). The kind byte of the Reply to a request whose kind is 0x80 or above: R189 adds 0x80 to
the request's kind, which then exceeds a byte. -/
opaque Config.replyKindHigh : Byte → Byte

/-- FREE VALUE (log entry 5). Which source's next report is offered when several blocks' reports wait at one event
(R174: "may be offered in any order that keeps the order each block's rules give for its own reports"). The first
number is the event's, the second how many reports of the event have been offered. -/
opaque Config.reportPick : Nat → Nat → Nat

end Sys2Proof
end

