-- ==== Sys2Proof/Machine/Bytes.lean ====
section
/-! DEFINITION. Byte order, packed decimal and the two cyclic redundancy checks (Chapter 12). -/

namespace Sys2Proof.Machine

/-- Two bytes as one field, most significant byte first (Chapter 12). -/
def half (hi lo : Byte) : Half := hi ++ lo

/-- The more significant byte of a two-byte field. -/
def hiByte (h : Half) : Byte := h.extractLsb' 8 8

/-- The less significant byte of a two-byte field. -/
def loByte (h : Half) : Byte := h.extractLsb' 0 8

/-- A two-byte field as it is sent. -/
def halfBytes (h : Half) : List Byte := [hiByte h, loByte h]

/-- A four-byte field as it is sent. -/
def crcBytes (c : Crc) : List Byte :=
  [c.extractLsb' 24 8, c.extractLsb' 16 8, c.extractLsb' 8 8, c.extractLsb' 0 8]

/-- Four bytes as one field, most significant byte first. -/
def word32 (b3 b2 b1 b0 : Byte) : Crc := ((b3 ++ b2) ++ b1) ++ b0

/-- The byte at an offset of a payload; callers ask only within a payload whose length they have judged. -/
def byteAt (bs : List Byte) (i : Nat) : Byte := bs.getD i 0

/-- The two-byte field at an offset of a payload. -/
def halfAt (bs : List Byte) (i : Nat) : Half := half (byteAt bs i) (byteAt bs (i + 1))

/-- One bit of the CRC-16: polynomial 0x1021, most significant bit first (R189). -/
def crc16Bit (c : Half) : Half := if c.msb then (c <<< 1) ^^^ 0x1021 else c <<< 1

/-- One byte of the CRC-16 (R189). -/
def crc16Byte (c : Half) (b : Byte) : Half :=
  (List.range 8).foldl (fun c _ => crc16Bit c) (c ^^^ half b 0)

/-- The CRC-16 of a telegram's bytes: initial value 0xFFFF, no final inversion (R189). -/
def crc16 (bs : List Byte) : Half := bs.foldl crc16Byte 0xFFFF

/-- One bit of the CRC-32: reflected form of the polynomial 0x04C11DB7 (R193). -/
def crc32Bit (c : Crc) : Crc := if c.getLsbD 0 then (c >>> 1) ^^^ 0xEDB88320 else c >>> 1

/-- One byte of the CRC-32 (R193). -/
def crc32Byte (c : Crc) (b : Byte) : Crc :=
  (List.range 8).foldl (fun c _ => crc32Bit c) (c ^^^ b.setWidth 32)

/-- The CRC-32 of bytes: initial value and final XOR 0xFFFFFFFF (R193). -/
def crc32 (bs : List Byte) : Crc := bs.foldl crc32Byte 0xFFFFFFFF ^^^ 0xFFFFFFFF

/-- Whether a four-bit group is a decimal digit (section 12.4). -/
def isDigit (n : BitVec 4) : Bool := n.toNat ≤ 9

/-- Whether a packed decimal designation is well formed: four digits 0 to 9, and not 0000 (R23, section 12.4). -/
def wellFormedDesignation (d : Half) : Bool :=
  isDigit (d.extractLsb' 12 4) && isDigit (d.extractLsb' 8 4) && isDigit (d.extractLsb' 4 4)
    && isDigit (d.extractLsb' 0 4) && d != 0

end Sys2Proof.Machine
end

