-- ==== Sys2Proof/Syntax.lean ====
section
/-! DEFINITION. The commands of the ZV3612: one constructor per row of spec/opcode_table.json. -/

namespace Sys2Proof

/-- The two B-links (00_scope, Ports). -/
inductive Link where
  | b1 | b2
  deriving DecidableEq, Repr

/-- The four telegram ports (00_scope, Ports). -/
inductive Port where
  | c | f | b1 | b2
  deriving DecidableEq, Repr

/-- The port of a B-link. -/
def Link.port : Link → Port
  | .b1 => .b1
  | .b2 => .b2

/-- The commands. A C-port request is a telegram that passed R166 steps 1 and 2 as that kind: its tag and its payload,
of any length. A B-link telegram is one of that kind: its payload. STATUS_TELEGRAM, UNKNOWN_KIND and
INVALID_BORDER_TELEGRAM carry the bytes received between two line idle periods, which the part judges (R7, R33, R166,
R189). The events inside the part name what they are events of. -/
inductive Instr where
  | powerOnReset
  | restart (tag : Half) (payload : List Byte)
  | restartReset
  | setRoute (tag : Half) (payload : List Byte)
  | cancelRoute (tag : Half) (payload : List Byte)
  | reSignal (tag : Half) (payload : List Byte)
  | movePoint (tag : Half) (payload : List Byte)
  | blockElement (tag : Half) (payload : List Byte)
  | unblockElement (tag : Half) (payload : List Byte)
  | auxPrepare (tag : Half) (payload : List Byte)
  | auxConfirm (tag : Half) (payload : List Byte)
  | readElement (tag : Half) (payload : List Byte)
  | readRoute (tag : Half) (payload : List Byte)
  | readIndications (tag : Half) (payload : List Byte)
  | acknowledgeIndications (tag : Half) (payload : List Byte)
  | setReportMask (tag : Half) (payload : List Byte)
  | loadTableSegment (tag : Half) (payload : List Byte)
  | verifyTables (tag : Half) (payload : List Byte)
  | enterOperation (tag : Half) (payload : List Byte)
  | leaveOperation (tag : Half) (payload : List Byte)
  | unknownKind (bytes : List Byte)
  | statusTelegram (bytes : List Byte)
  | borderStatus (link : Link) (payload : List Byte)
  | offer (link : Link) (payload : List Byte)
  | accept (link : Link) (payload : List Byte)
  | decline (link : Link) (payload : List Byte)
  | withdraw (link : Link) (payload : List Byte)
  | handback (link : Link) (payload : List Byte)
  | invalidBorderTelegram (link : Link) (bytes : List Byte)
  | reservation
  | supervisionLoss (element : Nat)
  | throwTimeout (element : Nat)
  | linkTimerExpiry (port : Port)
  | releaseTimerExpiry (timer : Nat)
  | contextTimerExpiry (context : Nat)
  | auxWindowExpiry
  | startupEnd
  | backgroundCheck
  | borderStatusSend (link : Link)
  | commandRefresh (fec : Nat)
  | reportSend
  | rateTick (rate : Nat)
  deriving DecidableEq, Repr

end Sys2Proof
end

