-- ==== Sys2Proof/Machine/Frame.lean ====
section
/-! DEFINITION. The common frame (section 12.1, R189) and the forms of the telegrams the part receives (R166, R190,
R191, R192). -/

namespace Sys2Proof.Machine

/-- A telegram in correct framing and with a correct CRC-16. -/
structure Frame where
  cls : Byte
  kind : Byte
  tag : Half
  payload : List Byte
  deriving DecidableEq, Repr

/-- The bytes of a frame from offset 0 to the end of the payload. -/
def Frame.body (f : Frame) : List Byte :=
  [f.cls, f.kind] ++ halfBytes f.tag ++ halfBytes (BitVec.ofNat 16 f.payload.length) ++ f.payload

/-- A frame as it is sent: the body and its CRC-16 (section 12.1). -/
def Frame.bytes (f : Frame) : List Byte := f.body ++ halfBytes (crc16 f.body)

/-- Judge the bytes received between two line idle periods: none where the framing is broken (their number is not
8 + L) or the CRC-16 does not match (R189). -/
def parseFrame : List Byte → Option Frame
  | cls :: kind :: t1 :: t0 :: l1 :: l0 :: rest =>
    let len := (half l1 l0).toNat
    if rest.length = len + 2 then
      let f : Frame := ⟨cls, kind, half t1 t0, rest.take len⟩
      if rest.drop len = halfBytes (crc16 ([cls, kind, t1, t0, l1, l0] ++ f.payload)) then some f else none
    else none
  | _ => none

/-- The three classes of a C-port request (section 12.1, R166). -/
inductive ReqClass where
  | operation | status | maintenance
  deriving DecidableEq, Repr

/-- The kinds of C-port requests (section 12.5). -/
inductive Req where
  | setRoute | cancelRoute | reSignal | movePoint | blockElement | unblockElement | auxPrepare | auxConfirm
  | readElement | readRoute | readIndications | acknowledgeIndications | setReportMask
  | loadTableSegment | verifyTables | enterOperation | leaveOperation | restart
  deriving DecidableEq, Repr

/-- Every request kind. -/
def Req.all : List Req :=
  [.setRoute, .cancelRoute, .reSignal, .movePoint, .blockElement, .unblockElement, .auxPrepare, .auxConfirm,
   .readElement, .readRoute, .readIndications, .acknowledgeIndications, .setReportMask,
   .loadTableSegment, .verifyTables, .enterOperation, .leaveOperation, .restart]

/-- The class of a request kind (section 12.5). -/
def Req.cls : Req → ReqClass
  | .setRoute | .cancelRoute | .reSignal | .movePoint | .blockElement | .unblockElement | .auxPrepare
  | .auxConfirm => .operation
  | .readElement | .readRoute | .readIndications | .acknowledgeIndications | .setReportMask => .status
  | .loadTableSegment | .verifyTables | .enterOperation | .leaveOperation | .restart => .maintenance

/-- The class codes (section 12.1). -/
def ReqClass.code : ReqClass → Byte
  | .operation => 0x01
  | .status => 0x02
  | .maintenance => 0x03

/-- The kind codes of the requests (section 12.5). -/
def Req.code : Req → Byte
  | .setRoute => 0x01
  | .cancelRoute => 0x02
  | .reSignal => 0x03
  | .movePoint => 0x04
  | .blockElement => 0x05
  | .unblockElement => 0x06
  | .auxPrepare => 0x07
  | .auxConfirm => 0x08
  | .readElement => 0x01
  | .readRoute => 0x02
  | .readIndications => 0x03
  | .acknowledgeIndications => 0x04
  | .setReportMask => 0x05
  | .loadTableSegment => 0x01
  | .verifyTables => 0x02
  | .enterOperation => 0x03
  | .leaveOperation => 0x04
  | .restart => 0x05

/-- The request kind a class code and a kind code name, none for UNKNOWN_KIND (R166 step 2). -/
def reqOfCodes (cls kind : Byte) : Option Req :=
  Req.all.find? (fun q => q.cls.code == cls && q.code == kind)

/-- The sizes of a record of table code 1 to 5 (section 12.6), 0 for any other code. -/
def recordSize (table : Byte) : Nat :=
  match table.toNat with
  | 1 => 9
  | 2 => 26
  | 3 => 9
  | 4 => 5
  | 5 => 14
  | _ => 0

/-- Whether the length of a payload fits its request kind (R166 step 3, R192); a payload above 4,096 bytes fits none
(R189). -/
def Req.lengthFits (q : Req) (p : List Byte) : Bool :=
  match q with
  | .setRoute | .cancelRoute | .reSignal | .readRoute => p.length == 5
  | .movePoint => p.length == 3
  | .blockElement | .unblockElement | .readElement | .acknowledgeIndications | .setReportMask => p.length == 2
  | .auxPrepare | .auxConfirm => p.length == 7
  | .verifyTables => p.length == 4
  | .readIndications | .enterOperation | .leaveOperation | .restart => p.length == 0
  | .loadTableSegment =>
    let size := recordSize (byteAt p 0)
    decide (3 < p.length) && decide (p.length ≤ 4096) && (size == 0 || (p.length - 3) % size == 0)

/-- The kinds of border transaction telegrams (section 12.3). -/
inductive BorderKind where
  | offer | accept | decline | withdraw | handback
  deriving DecidableEq, Repr

/-- The kind codes of the border transaction telegrams (section 12.3). -/
def BorderKind.code : BorderKind → Byte
  | .offer => 0x11
  | .accept => 0x12
  | .decline => 0x13
  | .withdraw => 0x14
  | .handback => 0x15

/-- Whether a payload fits a Border Status: the entry count is 0 to 8 and L is 1 + 3 times it (R191). -/
def borderStatusFits (p : List Byte) : Bool :=
  decide (0 < p.length) && decide ((byteAt p 0).toNat ≤ 8) && p.length == 1 + 3 * (byteAt p 0).toNat

/-- Whether a payload fits a border transaction telegram (R191). -/
def borderTransactionFits (p : List Byte) : Bool := p.length == 6

/-- The payload of a Status Telegram: class FIELD, kind 0x01 and L of 10 (R190); none for an invalid telegram. -/
def statusPayload (bytes : List Byte) : Option (List Byte) :=
  match parseFrame bytes with
  | some f => if f.cls == 0x10 && f.kind == 0x01 && f.payload.length == 10 then some f.payload else none
  | none => none

end Sys2Proof.Machine
end

