-- ==== Sys2Proof/Machine/Tbl.lean ====
section
/-! DEFINITION. Sparse tables: a list of (key, value) pairs in one canonical form, keys strictly rising and no value
equal to the one an unlisted key reads as. The Table Store's bytes and the runtime records are held in this form, so
that equal contents are equal lists. -/

namespace Sys2Proof.Machine

/-- A sparse table. -/
abbrev Tbl (α : Type) := List (Nat × α)

/-- The value at a key; an unlisted key reads as `d`. -/
def tblGet {α : Type} (d : α) : Tbl α → Nat → α
  | [], _ => d
  | (j, w) :: t, i => if i = j then w else tblGet d t i

/-- Put a value at a key, keeping the keys' order. -/
def tblPut {α : Type} : Tbl α → Nat → α → Tbl α
  | [], i, v => [(i, v)]
  | (j, w) :: t, i, v =>
    if i < j then (i, v) :: (j, w) :: t
    else if i = j then (i, v) :: t
    else (j, w) :: tblPut t i v

/-- Write a value at a key; the value an unlisted key reads as is not listed. -/
def tblSet {α : Type} [DecidableEq α] (d : α) (t : Tbl α) (i : Nat) (v : α) : Tbl α :=
  if v = d then t.filter (fun p => p.1 != i) else tblPut t i v

/-- The canonical form, with every key at or above `lo`. -/
def tblWfFrom {α : Type} [DecidableEq α] (d : α) : Nat → Tbl α → Bool
  | _, [] => true
  | lo, (j, w) :: t => decide (lo ≤ j) && decide (w ≠ d) && tblWfFrom d (j + 1) t

/-- The canonical form. -/
def tblWf {α : Type} [DecidableEq α] (d : α) (t : Tbl α) : Bool := tblWfFrom d 0 t

/-- The keys listed. -/
def tblKeys {α : Type} (t : Tbl α) : List Nat := t.map (·.1)

/-- The bytes of the Table Store: (address, byte) pairs; a byte nothing has loaded reads as 0 (section 11.1). -/
abbrev Memory := Tbl Byte

/-- One byte of the store. -/
def Memory.read (m : Memory) (a : Nat) : Byte := tblGet 0 m a

/-- Write one byte of the store. -/
def Memory.write (m : Memory) (a : Nat) (b : Byte) : Memory := tblSet 0 m a b

/-- Write bytes at consecutive addresses. -/
def Memory.writeAll (m : Memory) (a : Nat) (bs : List Byte) : Memory :=
  match bs with
  | [] => m
  | b :: rest => Memory.writeAll (Memory.write m a b) (a + 1) rest

/-- The bytes of `n` addresses from `a` on. -/
def Memory.bytes (m : Memory) (a n : Nat) : List Byte := (List.range n).map (fun k => Memory.read m (a + k))

/-- The canonical form of the store. -/
def Memory.wf (m : Memory) : Bool := tblWf 0 m

end Sys2Proof.Machine
end

