-- ==== Sys2Proof/Machine/State.lean ====
section
/-! DEFINITION. The state of the ZV3612 as plain data, the telegrams and reports it sends, and the machine right after
reset. Every enumeration lists its value after reset first. -/

namespace Sys2Proof.Machine

/-- The kinds of elements (section 1.1). -/
inductive Kind where
  | point | signal | sect | border
  deriving DecidableEq, Repr

/-- The two positions of a point. -/
inductive Side where
  | left | right
  deriving DecidableEq, Repr

/-- Reported states of POINT, SECTION and SIGNAL (R3). -/
inductive Reported where
  | unknown | left | right | moving | vacant | occupied | disturbed | dangerLit | proceedLit | dark
  deriving DecidableEq, Repr

/-- Neighbour section states of a BORDER (R3). -/
inductive Nbr where
  | unknown | vacant | occupied
  deriving DecidableEq, Repr

/-- Commanded states of a POINT (R3). -/
inductive PointCmd where
  | hold | left | right
  deriving DecidableEq, Repr

/-- Commanded aspects (R3, R73). -/
inductive Aspect where
  | danger | caution | proceed | shuntProceed
  deriving DecidableEq, Repr

/-- The runtime record of an element (R3), with the SU's deadline and heard mark (R25, R30) and the set time of the
restore-pending mark (R13). The blocked mark is retained and stands in `State.blocked`. -/
structure Elem where
  reported : Reported := .unknown
  nbr : Nbr := .unknown
  nbrEntryProven : Bool := false
  nbrOnwardClear : Bool := false
  pointCmd : PointCmd := .hold
  aspect : Aspect := .danger
  proven : Bool := false
  lockOwner : Option Nat := none
  claims : Nat := 0
  claimed : Option Side := none
  fault : Bool := false
  restore : Bool := false
  restoreSet : Option Nat := none
  lastThrow : Byte := 0
  deadline : Option Nat := none
  watch : Option Nat := none
  heard : Bool := false
  deriving DecidableEq, Repr

/-- The link states (section 2.3). -/
inductive LinkState where
  | down | up | lost
  deriving DecidableEq, Repr

/-- The link record of a port (section 2.3). -/
structure LinkRec where
  state : LinkState := .down
  count : Nat := 0
  timer : Option Nat := none
  deriving DecidableEq, Repr

/-- Route states (R73). -/
inductive RState where
  | free | queued | setting | locked | cleared | inUse | cancelling | overlapHeld
  deriving DecidableEq, Repr

/-- Who asked for a route (R73). -/
inductive Origin where
  | control (tag : Half)
  | neighbour (link : Link) (reference : Byte)
  deriving DecidableEq, Repr

/-- Group states (R127). -/
inductive GroupState where
  | reserved | seen | released
  deriving DecidableEq, Repr

/-- The release group of a flank requirement (R44, R99). -/
inductive RelGroup where
  | group (g : Nat)
  | overlap
  deriving DecidableEq, Repr

/-- The required state of a flank entry (R96). -/
inductive FlankState where
  | left | right | danger
  deriving DecidableEq, Repr

/-- A record of a flank resolution list (R99). -/
structure FlankRec where
  elem : Nat
  state : FlankState
  group : RelGroup
  deriving DecidableEq, Repr

/-- The purpose of a release timer (R65). -/
inductive Purpose where
  | none | approach | overlap | forced
  deriving DecidableEq, Repr

/-- The runtime record of a route, with its FREE values (R73). -/
structure RouteRec where
  state : RState := .free
  origin : Option Origin := none
  context : Option Nat := none
  clearWanted : Bool := false
  wasCleared : Bool := false
  groups : List GroupState := []
  flank : List FlankRec := []
  timer : Option Nat := none
  purpose : Purpose := .none
  deferred : Bool := false
  clamped : Bool := false
  aspect : Aspect := .danger
  deriving DecidableEq, Repr

/-- A record of the Request Queue (R76). -/
structure Request where
  route : Nat
  origin : Origin
  deriving DecidableEq, Repr

/-- An awaited point with its required position (R79, R85). -/
structure Awaited where
  elem : Nat
  side : Side
  deriving DecidableEq, Repr

/-- An ACTIVE setting context (R79); a FREE one is `none` in `State.contexts`. -/
structure Ctx where
  route : Nat
  awaited : List Awaited
  reply : Bool
  offerRef : Option Byte
  deriving DecidableEq, Repr

/-- A running timer (R60). `bornAt` is the base tick at whose instant it was started, where it was (a tick at the
instant of the start is not counted); `expired` says that the count has gone from 255 to 0 and the expiry is still to
be delivered. Both are the model's own (log entry 26). -/
structure Timer where
  rate : Nat
  count : Byte
  bornAt : Option Nat
  expired : Bool
  deriving DecidableEq, Repr

/-- A held release timer (R65). -/
structure HeldTimer where
  owner : Nat
  purpose : Purpose
  timer : Timer
  deriving DecidableEq, Repr

/-- An entry of the timer wait list (R65). -/
structure Waiting where
  route : Nat
  purpose : Purpose
  deriving DecidableEq, Repr

/-- Transaction states (section 8.3). -/
inductive TransState where
  | idle | offerSent | heldOut | inHeld
  deriving DecidableEq, Repr

/-- A border transaction telegram (section 12.3). -/
structure BorderTx where
  kind : BorderKind
  point : Byte
  reference : Byte
  reason : Byte
  designation : Half
  variant : Byte
  deriving DecidableEq, Repr

/-- A transaction record (R140). -/
structure TransRec where
  state : TransState := .idle
  reference : Option Byte := none
  lastSent : Option BorderTx := none
  deriving DecidableEq, Repr

/-- An auxiliary command: kind and target (R157). -/
inductive AuxCmd where
  | forcedRouteRelease (route : Nat)
  | sectionReset (elem : Nat)
  | auxPointMove (elem : Nat) (side : Side)
  | forcedBorderClear (elem : Nat)
  deriving DecidableEq, Repr

/-- The pending auxiliary record (R157). -/
structure AuxPending where
  cmd : AuxCmd
  tag : Half
  deriving DecidableEq, Repr

/-- The modes (section 11.3). -/
inductive Mode where
  | maintenance | startup | operational | safeStop
  deriving DecidableEq, Repr

/-- The eight indication latches, in latch bit order (R177, section 12.7). -/
inductive Latch where
  | elementFault | linkFault | routeFault | borderFault | tableFault | reportOverrun | slowThrow | aux
  deriving DecidableEq, Repr

/-- Route refusal and border reasons (section 12.7). -/
inductive Reason where
  | conflict | conditionFailed | flankHeld | flankUnavailable | pointFailed | borderDeclined | borderTimeout
  | borderLinkLost | borderCrossing | cancelled | safeStop | busy | unknownRoute | notReady | borderBusy | crossing
  deriving DecidableEq, Repr

/-- The events of Route Reports with the fields each adds (R74, R114). A designation of 0 names no element. -/
inductive RouteEvent where
  | queued
  | refused (reason : Reason) (designation : Half)
  | locked
  | cleared (aspect : Aspect)
  | reverted (designation : Half)
  | aspectChanged (aspect : Aspect)
  | inUse
  | cancelling (purpose : Purpose)
  | groupReleased (group : Nat)
  | released
  | cancelled (reason : Reason)
  | signalPassedAtDanger (designation : Half)
  | unexpectedOccupancy (designation : Half) (group : Nat)
  deriving DecidableEq, Repr

/-- A route key as the control system sees it (R74). -/
structure RouteKey where
  start : Half
  destination : Half
  variant : Nat
  deriving DecidableEq, Repr

/-- A Route Report (R74). -/
structure RouteReport where
  route : Nat
  key : RouteKey
  event : RouteEvent
  origin : Option Origin
  deferred : Bool
  clamped : Bool
  deriving DecidableEq, Repr

/-- An Element Report (R6): the codes are those of section 12.2 and the condition set that of section 12.7. -/
structure ElementReport where
  elem : Nat
  designation : Half
  kind : Kind
  reported : Byte
  commanded : Byte
  lastThrow : Option Byte
  conditions : BitVec 24
  deriving DecidableEq, Repr

/-- The cause of a Border Report (R140). -/
inductive BorderCause where
  | linkLost
  | forcedClear
  | received (kind : BorderKind)
  | sent (kind : BorderKind)
  deriving DecidableEq, Repr

/-- A Border Report (R140). The states are absent, and the designation 0, where the telegram's border point number
belongs to no BORDER element of the link (log entry 20). -/
structure BorderReport where
  designation : Half
  link : Link
  point : Byte
  before : Option TransState
  after : Option TransState
  reference : Byte
  cause : BorderCause
  reason : Option Byte
  deriving DecidableEq, Repr

/-- A Fault Report (section 12.7); its class is a latch other than AUX. -/
structure FaultReport where
  cls : Latch
  designation : Half
  port : Option Port
  route : Option Nat
  cause : Half
  deriving DecidableEq, Repr

/-- Why a pending auxiliary command was discarded (R161). -/
inductive DiscardCause where
  | sequence | notApplicable | linkLost | modeChange
  deriving DecidableEq, Repr

/-- The events of Aux Reports (R160). -/
inductive AuxEvent where
  | executed (counter : Half)
  | superseded
  | expired
  | discarded (cause : DiscardCause)
  deriving DecidableEq, Repr

/-- The target of an auxiliary command as designations (R160). -/
inductive AuxTarget where
  | route (key : RouteKey)
  | elem (designation : Half)
  deriving DecidableEq, Repr

/-- An Aux Report (R160). -/
structure AuxReport where
  event : AuxEvent
  cmd : AuxCmd
  target : AuxTarget
  tag : Half
  deriving DecidableEq, Repr

/-- The cause of a Mode Report (R182). -/
inductive ModeCause where
  | reset | enterOperation | startupEnd | leaveOperation | tableCheck
  deriving DecidableEq, Repr

/-- The six kinds of report (section 10.3). -/
inductive Report where
  | element (r : ElementReport)
  | route (r : RouteReport)
  | border (r : BorderReport)
  | fault (r : FaultReport)
  | aux (r : AuxReport)
  | mode (before : Option Mode) (after : Mode) (cause : ModeCause)
  deriving DecidableEq, Repr

/-- The reply codes (section 12.7). -/
inductive ReplyCode where
  | accepted | queued | queueFull | routeActive | notReady | wrongMode | unknownKind | badLength | outOfRange
  | badDesignation | unknownElement | unknownRoute | wrongKind | locked | blocked | occupied | notCancellable
  | notLocked | auxReplaced | auxSequence | auxNotApplicable | busyRoutes | tableInvalid | tableMismatch
  deriving DecidableEq, Repr

/-- What Read Element returns of a BORDER element (R156, R169). -/
structure BorderRead where
  link : Link
  point : Nat
  nbr : Nbr
  entryProven : Bool
  onwardClear : Bool
  proven : Bool
  trans : TransState
  reference : Option Byte
  lastKind : Option BorderKind
  deriving DecidableEq, Repr

/-- What Read Element returns (R169). An option is absent where the element's kind carries no such field. -/
structure ElementRead where
  designation : Half
  kind : Kind
  index : Nat
  reported : Byte
  lastThrow : Option Byte
  commanded : Byte
  lockOwner : Option RouteKey
  claims : Option Nat
  claimed : Option (Option Side)
  blocked : Bool
  fault : Option Bool
  restore : Option Bool
  supervised : Bool
  watch : Option Bool
  conditions : BitVec 24
  border : Option BorderRead
  deriving DecidableEq, Repr

/-- What Read Route returns (R72, R170). -/
structure RouteRead where
  index : Nat
  kind : Byte
  state : RState
  origin : Option Origin
  context : Option Nat
  clearWanted : Bool
  wasCleared : Bool
  aspect : Aspect
  groups : List GroupState
  flank : List (Half × FlankState × RelGroup)
  timer : Option Nat
  purpose : Purpose
  deferred : Bool
  clamped : Bool
  running : Option (Nat × Byte)
  awaited : Option (List Half × Bool × Option Byte)
  deriving DecidableEq, Repr

/-- What Read Indications returns (R171). -/
structure IndicationsRead where
  mode : Mode
  tablesValid : Bool
  links : List LinkState
  latches : BitVec 8
  lostPorts : BitVec 4
  auxCounter : Half
  storedCrc : Crc
  mask : BitVec 11
  queued : Nat
  lost : Nat
  notice : Bool
  seq : Half
  deriving DecidableEq, Repr

/-- What follows the reply code in a Reply's payload (R192). -/
inductive ReplyData where
  | none
  | routeIndex (r : Nat)
  | crc (c : Crc)
  | record (table : Nat) (position : Nat)
  | element (r : ElementRead)
  | route (r : RouteRead)
  | indications (r : IndicationsRead)
  deriving DecidableEq, Repr

/-- One entry of a Border Status the part sends (R138). -/
structure StatusEntry where
  point : Nat
  home : Nbr
  entryProven : Bool
  onwardClear : Bool
  deriving DecidableEq, Repr

/-- The telegrams the part sends. `Telegram.frame` (Machine/Wire.lean) gives their bytes. -/
inductive Telegram where
  | reply (cls kind : Byte) (tag : Half) (code : ReplyCode) (data : ReplyData)
  | report (seq : Half) (r : Report)
  | command (fec : Nat) (codes : List Byte)
  | resetOrder (fec slot : Nat)
  | borderStatus (entries : List StatusEntry)
  | transaction (tx : BorderTx)
  deriving DecidableEq, Repr

/-- A telegram sent on a port. -/
structure Sent where
  port : Port
  telegram : Telegram
  deriving DecidableEq, Repr

/-- The reasons a step can stop with a fault. There are none: the manual gives every command that reaches the part an
effect, be it to be discarded or to be refused by a Reply. -/
inductive Fault where
  deriving DecidableEq, Repr

/-- The reasons a step can be refused. `notModelled` is raised by no arm of `exec`: every row has its meaning (safe). -/
inductive Refusal where
  | notModelled (mnemonic : String)
  deriving DecidableEq, Repr

/-- The state of the part. The fields are grouped by the block that owns them (00_scope, block overview). -/
structure State where
  /-- The commands that wait, first in, first out: the model's own. -/
  pending : List Instr := []
  -- TM: the retained state (R178) and the mode
  store : Memory := []
  storedCrc : Crc := 0
  tablesValid : Bool := false
  blocked : Tbl Bool := []
  auxCounter : Half := 0
  mode : Mode := .maintenance
  safeN : Bool := false
  startupDeadline : Option Nat := none
  restartPending : Bool := false
  -- FLC, EI, DM, SU
  life : Tbl (Option Byte) := []
  elems : Tbl Elem := []
  dmap : List (Half × Nat) := []
  linkC : LinkRec := {}
  linkF : LinkRec := {}
  linkB1 : LinkRec := {}
  linkB2 : LinkRec := {}
  -- RQ, SE, RM, FR
  requests : List Request := []
  contexts : Tbl (Option Ctx) := []
  routes : Tbl RouteRec := []
  -- TB
  tick : Nat := 3839999
  atTick : Bool := false
  /-- The events of the last base tick that the idle step has still to bring: the model's own (log entry 2). -/
  due : List Instr := []
  timers : Tbl (Option HeldTimer) := []
  waitList : List Waiting := []
  ctxTimers : Tbl (Option Timer) := []
  auxTimer : Option Timer := none
  -- BL1, BL2
  trans : Tbl TransRec := []
  offerRef1 : Byte := 0
  offerRef2 : Byte := 0
  -- AU
  auxPending : Option AuxPending := none
  -- CPC
  queue : List Report := []
  latches : BitVec 8 := 0
  lostPorts : BitVec 4 := 0
  mask : BitVec 11 := 0x7FF
  seq : Half := 0
  lost : Nat := 0
  notice : Bool := false
  -- the model's own: events taken, and what was sent
  events : Nat := 0
  sent : List Sent := []
  deriving DecidableEq, Repr

/-- The machine right after reset: the part as delivered (section 11.1: every table position zero-filled, the
tables-valid mark clear, the stored CRC-32 0, the blocked set empty, the aux counter 0) after its start-up check, which
chooses MAINTENANCE and queues the Mode Report with cause RESET (R182, R186). Every other field stands at the value the
manual gives it after reset, as the field's default. -/
def State.reset : State := { queue := [.mode none .maintenance .reset] }

end Sys2Proof.Machine
end

