-- ==== Sys2Proof/Machine/Tables.lean ====
section
/-! DEFINITION. The Table Store as the other blocks read it: record layouts (section 12.6), the element table, the
Route Table, the List Store, the Flank Table, the site parameters, the FEC list (R1) and the table CRC-32 (R178). -/

namespace Sys2Proof.Machine

/-- The first address of each table: the tables lie in the order of the table CRC-32 (R178). -/
def elemBase : Nat := 0
/-- The Route Table follows 512 element records of 9 bytes. -/
def routeBase : Nat := 4608
/-- The List Store follows 384 route records of 26 bytes. -/
def listBase : Nat := 14592
/-- The Flank Table follows 12,288 list entries of 9 bytes. -/
def flankBase : Nat := 125184
/-- The site parameters follow 1024 flank entries of 5 bytes. -/
def siteBase : Nat := 130304
/-- The number of bytes of the Table Store: the site parameters record has 14. -/
def storeSize : Nat := 130318

/-- The first address of the table of a code (section 12.6). -/
def tableBase (table : Byte) : Nat :=
  match table.toNat with
  | 1 => elemBase
  | 2 => routeBase
  | 3 => listBase
  | 4 => flankBase
  | _ => siteBase

/-- The record positions of the table of a code (section 11.1), 0 for a code outside the five. -/
def tablePositions (table : Byte) : Nat :=
  match table.toNat with
  | 1 => 512
  | 2 => 384
  | 3 => 12288
  | 4 => 1024
  | 5 => 1
  | _ => 0

/-- The table CRC-32: over every record position of the five tables in order (R178, R193). -/
def tableCrc (m : Memory) : Crc := crc32 (Memory.bytes m 0 storeSize)

/-- A byte of the store as a number. -/
def u8 (m : Memory) (a : Nat) : Nat := (Memory.read m a).toNat

/-- A two-byte field of the store as a number. -/
def u16 (m : Memory) (a : Nat) : Nat := (half (Memory.read m a) (Memory.read m (a + 1))).toNat

/-- Element kind codes (section 12.6). -/
def kindOfCode : Nat → Option Kind
  | 1 => some .point
  | 2 => some .signal
  | 3 => some .sect
  | 4 => some .border
  | _ => none

/-- The code of an element kind (section 12.6). -/
def Kind.code : Kind → Byte
  | .point => 1
  | .signal => 2
  | .sect => 3
  | .border => 4

/-- Required position codes: 0x01 LEFT, 0x02 RIGHT (sections 12.5 and 12.6). -/
def sideOfCode : Nat → Option Side
  | 1 => some .left
  | 2 => some .right
  | _ => none

/-- The link a link code names (section 12.6: 1 B1, 2 B2). -/
def linkOfCode : Nat → Option Link
  | 1 => some .b1
  | 2 => some .b2
  | _ => none

/-- A record of the element table as loaded (sections 1.1 and 12.6). -/
structure ElemRow where
  kind : Option Kind
  designation : Half
  /-- FEC address, or the link code of a BORDER. -/
  addr : Nat
  /-- Slot, or the border point number of a BORDER. -/
  slot : Nat
  interval : Nat
  throwLimit : Nat
  /-- Point section of a POINT, or home section of a BORDER. -/
  sect : Nat
  deriving DecidableEq, Repr

/-- The element record at a position. -/
def elemRow (m : Memory) (i : Nat) : ElemRow :=
  let a := elemBase + 9 * i
  { kind := kindOfCode (u8 m a), designation := half (Memory.read m (a + 1)) (Memory.read m (a + 2)),
    addr := u8 m (a + 3), slot := u8 m (a + 4), interval := u8 m (a + 5), throwLimit := u8 m (a + 6),
    sect := u16 m (a + 7) }

/-- The kinds of routes (R40, section 12.6). -/
inductive RouteKind where
  | main | shunt | exit | entry
  deriving DecidableEq, Repr

/-- Route kind codes (section 12.6). -/
def routeKindOfCode : Nat → Option RouteKind
  | 1 => some .main
  | 2 => some .shunt
  | 3 => some .exit
  | 4 => some .entry
  | _ => none

/-- A route record as loaded (R40, section 12.6). -/
structure RouteRow where
  start : Nat
  dest : Nat
  variant : Nat
  kindCode : Nat
  pathFirst : Nat
  pathCount : Nat
  ovFirst : Nat
  ovCount : Nat
  apFirst : Nat
  apCount : Nat
  flFirst : Nat
  flCount : Nat
  groups : Nat
  length : Nat
  speed : Nat
  margin : Nat
  ovTime : Nat
  berth : Nat
  deriving DecidableEq, Repr

/-- The route record at a position. -/
def routeRow (m : Memory) (r : Nat) : RouteRow :=
  let a := routeBase + 26 * r
  { start := u16 m a, dest := u16 m (a + 2), variant := u8 m (a + 4), kindCode := u8 m (a + 5),
    pathFirst := u16 m (a + 6), pathCount := u8 m (a + 8), ovFirst := u16 m (a + 9), ovCount := u8 m (a + 11),
    apFirst := u16 m (a + 12), apCount := u8 m (a + 14), flFirst := u16 m (a + 15), flCount := u8 m (a + 17),
    groups := u8 m (a + 18), length := u16 m (a + 19), speed := u8 m (a + 21), margin := u8 m (a + 22),
    ovTime := u8 m (a + 23), berth := u16 m (a + 24) }

/-- The kind of a route record. -/
def RouteRow.kind (w : RouteRow) : Option RouteKind := routeKindOfCode w.kindCode

/-- A List Store entry as loaded (R43, section 12.6). -/
structure ListRow where
  role : Nat
  /-- Element index, or flank head. -/
  target : Nat
  position : Nat
  group : Nat
  testKind : Nat
  testSet : BitVec 24
  deriving DecidableEq, Repr

/-- The List Store entry at an index. -/
def listRow (m : Memory) (i : Nat) : ListRow :=
  let a := listBase + 9 * i
  { role := u8 m a, target := u16 m (a + 1), position := u8 m (a + 3), group := u8 m (a + 4),
    testKind := u8 m (a + 5),
    testSet := (Memory.read m (a + 6) ++ Memory.read m (a + 7)) ++ Memory.read m (a + 8) }

/-- A run of consecutive entries, in stored order (R43). -/
def listRun (m : Memory) (first count : Nat) : List ListRow := (List.range count).map (fun k => listRow m (first + k))

/-- A route's path list. -/
def pathOf (m : Memory) (w : RouteRow) : List ListRow := listRun m w.pathFirst w.pathCount
/-- A route's overlap list. -/
def overlapOf (m : Memory) (w : RouteRow) : List ListRow := listRun m w.ovFirst w.ovCount
/-- A route's approach list. -/
def approachOf (m : Memory) (w : RouteRow) : List ListRow := listRun m w.apFirst w.apCount
/-- A route's flank requirement list. -/
def flankReqsOf (m : Memory) (w : RouteRow) : List ListRow := listRun m w.flFirst w.flCount

/-- The release group a FLANK_REQUIREMENT entry carries: 0xFF is OVERLAP (section 12.6). -/
def ListRow.relGroup (e : ListRow) : RelGroup := if e.group = 255 then .overlap else .group e.group

/-- Required state codes of the Flank Table (section 12.6). -/
def flankStateOfCode : Nat → Option FlankState
  | 1 => some .left
  | 2 => some .right
  | 3 => some .danger
  | _ => none

/-- A Flank Table entry as loaded (R96, section 12.6). -/
structure FlankRow where
  elem : Nat
  state : Option FlankState
  next : Option Nat
  deriving DecidableEq, Repr

/-- The Flank Table entry at an index. A next field of 1,024 and above is read as none (R193). -/
def flankRow (m : Memory) (i : Nat) : FlankRow :=
  let a := flankBase + 5 * i
  let n := u16 m (a + 3)
  { elem := u16 m a, state := flankStateOfCode (u8 m (a + 2)), next := if n < 1024 then some n else none }

/-- The site parameters (section 11.1, section 12.6): the element count N. -/
def siteElements (m : Memory) : Nat := u16 m siteBase
/-- The route count R. -/
def siteRoutes (m : Memory) : Nat := u16 m (siteBase + 2)
/-- The link timeout code of a port. -/
def siteTimeout (m : Memory) : Port → Nat
  | .c => u8 m (siteBase + 4)
  | .f => u8 m (siteBase + 5)
  | .b1 => u8 m (siteBase + 6)
  | .b2 => u8 m (siteBase + 7)
/-- The seniority code of a B-link: 0x01 SENIOR, 0x02 JUNIOR. -/
def siteSeniority (m : Memory) : Link → Nat
  | .b1 => u8 m (siteBase + 8)
  | .b2 => u8 m (siteBase + 9)
/-- The border reply time in seconds. -/
def siteReplyTime (m : Memory) : Nat := u8 m (siteBase + 10)
/-- The aux window time in seconds. -/
def siteAuxTime (m : Memory) : Nat := u8 m (siteBase + 11)
/-- The forced release time in seconds. -/
def siteForcedTime (m : Memory) : Nat := u16 m (siteBase + 12)

/-- Supervision intervals in base ticks by code (R24). Verify Tables holds the code to 0 to 7. -/
def intervalTicks (code : Nat) : Nat := [60, 120, 180, 240, 360, 480, 720, 960].getD code 960

/-- Link timeouts in base ticks by code (R32). Verify Tables holds the code to 0 to 7. -/
def timeoutTicks (code : Nat) : Nat := [30, 50, 80, 120, 200, 300, 500, 800].getD code 800

/-- Whether an element is reached through an FEC. -/
def Kind.onField : Kind → Bool
  | .border => false
  | _ => true

/-- The element records in force: none while the tables-valid mark is clear (R29, R136). -/
def State.elemCount (s : State) : Nat := if s.tablesValid then siteElements s.store else 0

/-- The element indices in force, ascending. -/
def State.elemIndices (s : State) : List Nat := List.range s.elemCount

/-- The route records in force. -/
def State.routeCount (s : State) : Nat := if s.tablesValid then siteRoutes s.store else 0

/-- The element record of an index. -/
def State.erow (s : State) (e : Nat) : ElemRow := elemRow s.store e

/-- The route record of an index. -/
def State.rrow (s : State) (r : Nat) : RouteRow := routeRow s.store r

/-- The kind of an element in force, none for an index that holds no element. -/
def State.kind (s : State) (e : Nat) : Option Kind := if e < s.elemCount then (s.erow e).kind else none

/-- The kind of a route in force. -/
def State.routeKind (s : State) (r : Nat) : Option RouteKind :=
  if r < s.routeCount then (s.rrow r).kind else none

/-- Whether an element in force is reached through the FEC of an address. -/
def State.onFec (s : State) (fec e : Nat) : Bool :=
  match s.kind e with
  | some k => k.onField && (s.erow e).addr == fec
  | none => false

/-- The elements configured on an FEC, ascending. -/
def State.fecElems (s : State) (fec : Nat) : List Nat := s.elemIndices.filter (s.onFec fec)

/-- The element configured at an FEC address and slot (R1). -/
def State.slotElem (s : State) (fec slot : Nat) : Option Nat :=
  (s.fecElems fec).find? (fun e => (s.erow e).slot == slot)

/-- Whether an FEC address is configured (R1). -/
def State.fecConfigured (s : State) (fec : Nat) : Bool := !(s.fecElems fec).isEmpty

/-- The FEC list: the configured FECs in ascending address order (R1). An FEC address is one byte. -/
def State.fecList (s : State) : List Nat := (List.range 256).filter s.fecConfigured

/-- The position of an FEC in the FEC list. -/
def State.fecPosition (s : State) (fec : Nat) : Nat := (s.fecList.filter (fun a => decide (a < fec))).length

/-- The base tick of the 100-tick cycle at which a configured FEC is refreshed: i x 100 / n, rounded down (R12). -/
def State.refreshTurn (s : State) (fec : Nat) : Nat := s.fecPosition fec * 100 / s.fecList.length

/-- Whether an element is a BORDER element of a link. -/
def State.onLink (s : State) (l : Link) (e : Nat) : Bool :=
  s.kind e == some .border && linkOfCode (s.erow e).addr == some l

/-- The BORDER element of a link that carries a border point number. -/
def State.borderElem (s : State) (l : Link) (point : Nat) : Option Nat :=
  s.elemIndices.find? (fun e => s.onLink l e && (s.erow e).slot == point)

/-- The BORDER elements of a link in ascending border point number, 0 to 7. -/
def State.linkElems (s : State) (l : Link) : List Nat := (List.range 8).filterMap (s.borderElem l)

/-- The link of a BORDER element. -/
def State.elemLink (s : State) (e : Nat) : Option Link := linkOfCode (s.erow e).addr

/-- The designation of an element. -/
def State.desig (s : State) (e : Nat) : Half := (s.erow e).designation

/-- A route's key as designations (R74). -/
def State.routeKeyOf (s : State) (r : Nat) : RouteKey :=
  { start := s.desig (s.rrow r).start, destination := s.desig (s.rrow r).dest, variant := (s.rrow r).variant }

/-- The route of a key of element indices (R46 step 3). -/
def State.findRoute (s : State) (start dest variant : Nat) : Option Nat :=
  (List.range s.routeCount).find? (fun r =>
    (s.rrow r).start == start && (s.rrow r).dest == dest && (s.rrow r).variant == variant)

/-- The link timeout in force at a port, in base ticks: code 7 while the tables-valid mark is clear (R32). -/
def State.linkTimeout (s : State) (p : Port) : Nat :=
  if s.tablesValid then timeoutTicks (siteTimeout s.store p) else timeoutTicks 7

/-- The Designation Map of an element table: (designation, element index), ascending by designation (R23). -/
def insertDesig (d : Half) (i : Nat) : List (Half × Nat) → List (Half × Nat)
  | [] => [(d, i)]
  | (d', j) :: t => if d.toNat < d'.toNat then (d, i) :: (d', j) :: t else (d', j) :: insertDesig d i t

/-- The Designation Map built from the element table (R23). -/
def buildMap (m : Memory) : List (Half × Nat) :=
  (List.range (siteElements m)).foldl (fun acc i => insertDesig (elemRow m i).designation i acc) []

/-- The element index a designation maps to. -/
def lookupMap : List (Half × Nat) → Half → Option Nat
  | [], _ => none
  | (d', j) :: t, d => if d = d' then some j else lookupMap t d

end Sys2Proof.Machine
end

