-- ==== Sys2Proof/Machine/Flags.lean ====
section
/-! DEFINITION. Every flag computation: the eighteen conditions and their derivation (R4, R5), condition tests (R48),
the indication latches (R177) and the report mask (R173). -/

namespace Sys2Proof.Machine

/-- The runtime record of an element. -/
def State.elem (s : State) (e : Nat) : Elem := tblGet {} s.elems e
/-- The blocked mark of an element. -/
def State.isBlocked (s : State) (e : Nat) : Bool := tblGet false s.blocked e
/-- The transaction record of a BORDER element. -/
def State.transOf (s : State) (e : Nat) : TransRec := tblGet {} s.trans e
/-- The runtime record of a route. -/
def State.route (s : State) (r : Nat) : RouteRec := tblGet {} s.routes r
/-- A setting context: none while FREE. -/
def State.ctx (s : State) (c : Nat) : Option Ctx := tblGet none s.contexts c
/-- A release timer: none while free. -/
def State.timerOf (s : State) (t : Nat) : Option HeldTimer := tblGet none s.timers t
/-- A context timer: none while stopped. -/
def State.ctxTimer (s : State) (c : Nat) : Option Timer := tblGet none s.ctxTimers c
/-- The last accepted life count of an FEC. -/
def State.lifeOf (s : State) (fec : Nat) : Option Byte := tblGet none s.life fec
/-- The link record of a port. -/
def State.link (s : State) : Port → LinkRec
  | .c => s.linkC
  | .f => s.linkF
  | .b1 => s.linkB1
  | .b2 => s.linkB2

/-- The eighteen conditions (R4, R5), in the order of their numbers (section 12.7). -/
inductive Cond where
  | inControl | vacant | occupied | atLeft | atRight | moving | dangerProven | proceedShown | lampFault
  | routeLocked | flankClaimed | blocked | fault | restorePending | borderHeld | inboundHeld
  | entryProven | onwardClear
  deriving DecidableEq, Repr

/-- Every condition, in the order of their numbers. -/
def Cond.all : List Cond :=
  [.inControl, .vacant, .occupied, .atLeft, .atRight, .moving, .dangerProven, .proceedShown, .lampFault,
   .routeLocked, .flankClaimed, .blocked, .fault, .restorePending, .borderHeld, .inboundHeld,
   .entryProven, .onwardClear]

/-- The number of a condition (section 12.7). -/
def Cond.num : Cond → Nat
  | .inControl => 0
  | .vacant => 1
  | .occupied => 2
  | .atLeft => 3
  | .atRight => 4
  | .moving => 5
  | .dangerProven => 6
  | .proceedShown => 7
  | .lampFault => 8
  | .routeLocked => 9
  | .flankClaimed => 10
  | .blocked => 11
  | .fault => 12
  | .restorePending => 13
  | .borderHeld => 14
  | .inboundHeld => 15
  | .entryProven => 16
  | .onwardClear => 17

/-- Whether the SU holds a BORDER element in control: its link is UP and its heard mark is set (R30). -/
def State.linkHolds (s : State) (e : Nat) : Bool :=
  (s.elem e).heard &&
    (match s.elemLink e with
     | some l => (s.link l.port).state == .up
     | none => false)

/-- Whether the SU holds an element supervised (R25) or, for a BORDER, in control through its link (R30). -/
def State.supervised (s : State) (e : Nat) : Bool :=
  match s.kind e with
  | some .border => s.linkHolds e
  | some _ => (s.elem e).deadline.isSome
  | none => false

/-- IN_CONTROL (R4, R5). -/
def State.inControl (s : State) (e : Nat) : Bool :=
  match s.kind e with
  | some .border => s.supervised e && (s.elem e).nbr != .unknown
  | some _ => s.supervised e && (s.elem e).reported != .unknown
  | none => false

/-- Whether a condition is in the condition set of an element (R4, R5). An index that holds no element holds none. -/
def State.holds (s : State) (e : Nat) (c : Cond) : Bool :=
  let r := s.elem e
  match s.kind e with
  | none => false
  | some k =>
    match c with
    | .inControl => s.inControl e
    | .vacant =>
      match k with
      | .sect => r.reported == .vacant && !r.restore
      | .border => s.inControl e && r.nbr == .vacant
      | _ => false
    | .occupied =>
      match k with
      | .sect => r.reported == .occupied || r.reported == .disturbed
      | .border => s.inControl e && r.nbr == .occupied
      | _ => false
    | .atLeft => k == .point && r.reported == .left
    | .atRight => k == .point && r.reported == .right
    | .moving => k == .point && r.reported == .moving
    | .dangerProven => k == .signal && r.reported == .dangerLit
    | .proceedShown => k == .signal && r.reported == .proceedLit
    | .lampFault => k == .signal && r.reported == .dark
    | .routeLocked => r.lockOwner.isSome
    | .flankClaimed => (k == .point || k == .signal) && decide (0 < r.claims)
    | .blocked => s.isBlocked e
    | .fault => k == .point && r.fault
    | .restorePending => k == .sect && r.restore
    | .borderHeld => k == .border && (s.transOf e).state == .heldOut
    | .inboundHeld => k == .border && (s.transOf e).state == .inHeld
    | .entryProven => k == .border && s.inControl e && r.nbrEntryProven
    | .onwardClear => k == .border && s.inControl e && r.nbrOnwardClear

/-- The condition set of an element as it travels: bit n stands for condition number n (section 12.7). -/
def State.condSet (s : State) (e : Nat) : BitVec 24 :=
  Cond.all.foldl (fun acc c => if s.holds e c then acc ||| (1#24 <<< c.num) else acc) 0

/-- The conditions a carried set names. -/
def namedConds (set : BitVec 24) : List Cond := Cond.all.filter (fun c => set.getLsbD c.num)

/-- The test of a test kind and a set (R48): 1 ALL, 2 NONE, 3 ANY; kind 0 is absent and passes (R193). -/
def State.passesTest (s : State) (e : Nat) (testKind : Nat) (set : BitVec 24) : Bool :=
  match testKind with
  | 1 => (namedConds set).all (s.holds e)
  | 2 => (namedConds set).all (fun c => !s.holds e c)
  | 3 => (namedConds set).any (s.holds e)
  | _ => true

/-- The extra test of a list entry, where it is present (R49). -/
def State.extraTest (s : State) (w : ListRow) : Bool := s.passesTest w.target w.testKind w.testSet

/-- Whether a point holds the condition of a position: AT_LEFT for LEFT, AT_RIGHT for RIGHT (R51). -/
def State.atSide (s : State) (e : Nat) : Side → Bool
  | .left => s.holds e .atLeft
  | .right => s.holds e .atRight

/-- Whether an element holds both IN_CONTROL and VACANT. -/
def State.clearOf (s : State) (e : Nat) : Bool := s.holds e .inControl && s.holds e .vacant

/-- The reported state of an end position. -/
def Side.reported : Side → Reported
  | .left => .left
  | .right => .right

/-- The commanded state of an end position. -/
def Side.cmd : Side → PointCmd
  | .left => .left
  | .right => .right

/-- The end position a point is commanded to, none for HOLD. -/
def PointCmd.side : PointCmd → Option Side
  | .hold => none
  | .left => some .left
  | .right => some .right

/-- The other end position. -/
def Side.other : Side → Side
  | .left => .right
  | .right => .left

/-- The bit of a latch (section 12.7). -/
def Latch.bit : Latch → Nat
  | .elementFault => 0
  | .linkFault => 1
  | .routeFault => 2
  | .borderFault => 3
  | .tableFault => 4
  | .reportOverrun => 5
  | .slowThrow => 6
  | .aux => 7

/-- The bit of a port in LINK_FAULT's set (section 12.7). -/
def portBit : Port → Nat
  | .c => 0
  | .f => 1
  | .b1 => 2
  | .b2 => 3

/-- The latches with one set (R177). -/
def setLatch (ls : BitVec 8) (l : Latch) : BitVec 8 := ls ||| (1#8 <<< l.bit)

/-- Whether a latch is set. -/
def State.latched (s : State) (l : Latch) : Bool := s.latches.getLsbD l.bit

/-- The bit of a report's class in the report mask, none for a Mode Report (R173, section 12.7). -/
def Report.maskBit : Report → Option Nat
  | .element _ => some 8
  | .route _ => some 9
  | .border _ => some 10
  | .fault f => some f.cls.bit
  | .aux _ => some 7
  | .mode _ _ _ => none

/-- Whether the mask lets a report be queued (R174 step 1). -/
def maskAllows (mask : BitVec 11) (r : Report) : Bool :=
  match r.maskBit with
  | some b => mask.getLsbD b
  | none => true

end Sys2Proof.Machine
end

