-- ==== Sys2Proof/Machine/Codes.lean ====
section
/-! DEFINITION. The code tables of Chapter 12. -/

namespace Sys2Proof.Machine

/-- The state a Status Telegram's code gives an element of a kind: a code the table does not give for that kind is
UNKNOWN (R8, R190). -/
def reportedOfCode (k : Kind) (c : Byte) : Reported :=
  match k with
  | .point => if c = 0x11 then .left else if c = 0x12 then .right else if c = 0x13 then .moving else .unknown
  | .sect => if c = 0x21 then .vacant else if c = 0x22 then .occupied else if c = 0x23 then .disturbed else .unknown
  | .signal => if c = 0x31 then .dangerLit else if c = 0x32 then .proceedLit else if c = 0x33 then .dark else .unknown
  | .border => .unknown

/-- The state code of a reported state (section 12.2). -/
def Reported.code : Reported → Byte
  | .unknown => 0x00
  | .left => 0x11
  | .right => 0x12
  | .moving => 0x13
  | .vacant => 0x21
  | .occupied => 0x22
  | .disturbed => 0x23
  | .dangerLit => 0x31
  | .proceedLit => 0x32
  | .dark => 0x33

/-- The home section state code of a neighbour section state (section 12.3). -/
def Nbr.code : Nbr → Byte
  | .unknown => 0x00
  | .vacant => 0x21
  | .occupied => 0x22

/-- The neighbour section state of a received code; a code outside the three is UNKNOWN (R191). -/
def nbrOfCode (c : Byte) : Nbr := if c = 0x21 then .vacant else if c = 0x22 then .occupied else .unknown

/-- The command code of a point's commanded state (section 12.2). -/
def PointCmd.code : PointCmd → Byte
  | .hold => 0x40
  | .left => 0x41
  | .right => 0x42

/-- The command code of an aspect (section 12.2). -/
def Aspect.code : Aspect → Byte
  | .danger => 0x50
  | .caution => 0x51
  | .proceed => 0x52
  | .shuntProceed => 0x53

/-- A mark or flag in one byte (section 12.7). -/
def flagByte (b : Bool) : Byte := if b then 1 else 0

/-- The reported state of an element as it travels; of a BORDER element, the neighbour section state (section 12.7). -/
def State.reportedByte (s : State) (e : Nat) : Byte :=
  match s.kind e with
  | some .border => (s.elem e).nbr.code
  | _ => (s.elem e).reported.code

/-- The commanded state of an element as it travels: the command code, 0x00 for a SECTION; of a BORDER element, its
proven flag (sections 12.2 and 12.7). -/
def State.commandByte (s : State) (e : Nat) : Byte :=
  match s.kind e with
  | some .point => (s.elem e).pointCmd.code
  | some .signal => (s.elem e).aspect.code
  | some .border => flagByte (s.elem e).proven
  | _ => 0x00

/-- The command code of a slot of an FEC: 0x00 for a SECTION slot and for a slot not configured (R190). -/
def State.slotCode (s : State) (fec slot : Nat) : Byte :=
  match s.slotElem fec slot with
  | some e => s.commandByte e
  | none => 0x00

/-- The commanded states of the four slots of an FEC (R11). -/
def State.commandCodes (s : State) (fec : Nat) : List Byte := (List.range 4).map (s.slotCode fec)

/-- The codes of the reasons (section 12.7). -/
def Reason.code : Reason → Byte
  | .conflict => 0x01
  | .conditionFailed => 0x02
  | .flankHeld => 0x03
  | .flankUnavailable => 0x04
  | .pointFailed => 0x05
  | .borderDeclined => 0x06
  | .borderTimeout => 0x07
  | .borderLinkLost => 0x08
  | .borderCrossing => 0x09
  | .cancelled => 0x0A
  | .safeStop => 0x0B
  | .busy => 0x10
  | .unknownRoute => 0x11
  | .notReady => 0x12
  | .borderBusy => 0x13
  | .crossing => 0x14

/-- The reply codes (section 12.7). -/
def ReplyCode.code : ReplyCode → Byte
  | .accepted => 0x00
  | .queued => 0x01
  | .queueFull => 0x02
  | .routeActive => 0x03
  | .notReady => 0x04
  | .wrongMode => 0x05
  | .unknownKind => 0x06
  | .badLength => 0x07
  | .outOfRange => 0x08
  | .badDesignation => 0x09
  | .unknownElement => 0x0A
  | .unknownRoute => 0x0B
  | .wrongKind => 0x0C
  | .locked => 0x0D
  | .blocked => 0x0E
  | .occupied => 0x0F
  | .notCancellable => 0x10
  | .notLocked => 0x11
  | .auxReplaced => 0x12
  | .auxSequence => 0x13
  | .auxNotApplicable => 0x14
  | .busyRoutes => 0x15
  | .tableInvalid => 0x16
  | .tableMismatch => 0x17

/-- Route states in code order, from 0 (section 12.7). -/
def RState.code : RState → Byte
  | .free => 0
  | .queued => 1
  | .setting => 2
  | .locked => 3
  | .cleared => 4
  | .inUse => 5
  | .cancelling => 6
  | .overlapHeld => 7

/-- Group states in code order. -/
def GroupState.code : GroupState → Byte
  | .reserved => 0
  | .seen => 1
  | .released => 2

/-- Transaction states in code order. -/
def TransState.code : TransState → Byte
  | .idle => 0
  | .offerSent => 1
  | .heldOut => 2
  | .inHeld => 3

/-- Modes in code order. -/
def Mode.code : Mode → Byte
  | .maintenance => 0
  | .startup => 1
  | .operational => 2
  | .safeStop => 3

/-- Link states in code order. -/
def LinkState.code : LinkState → Byte
  | .down => 0
  | .up => 1
  | .lost => 2

/-- Timer purposes in code order. -/
def Purpose.code : Purpose → Byte
  | .none => 0
  | .approach => 1
  | .overlap => 2
  | .forced => 3

/-- Mode Report causes in code order. -/
def ModeCause.code : ModeCause → Byte
  | .reset => 0
  | .enterOperation => 1
  | .startupEnd => 2
  | .leaveOperation => 3
  | .tableCheck => 4

/-- Aux discard causes in code order. -/
def DiscardCause.code : DiscardCause → Byte
  | .sequence => 0
  | .notApplicable => 1
  | .linkLost => 2
  | .modeChange => 3

/-- Border Report causes (section 12.7). -/
def BorderCause.code : BorderCause → Byte
  | .linkLost => 0
  | .forcedClear => 1
  | .received k => k.code
  | .sent k => k.code + 0x80

/-- Fault causes in code order (section 12.7). -/
inductive FaultCause where
  | throwTimeout | uncommandedMovement | supervisionLoss | startCheck | backgroundCheck
  | signalPassedAtDanger | unexpectedOccupancy
  deriving DecidableEq, Repr

/-- The code of a fault cause, in the low byte of the cause field (section 12.7). -/
def FaultCause.code : FaultCause → Half
  | .throwTimeout => 0
  | .uncommandedMovement => 1
  | .supervisionLoss => 2
  | .startCheck => 3
  | .backgroundCheck => 4
  | .signalPassedAtDanger => 5
  | .unexpectedOccupancy => 6

/-- A byte in the low byte of a two-byte field. -/
def lowByte (b : Byte) : Half := b.setWidth 16

end Sys2Proof.Machine
end

