-- ==== Sys2Proof/Machine/Operands.lean ====
section
/-! DEFINITION. The operand forms of the requests and border telegrams: lookups (R23, R46, R47), range checks (R192)
and the fields read from payloads (Chapter 12). -/

namespace Sys2Proof.Machine

/-- Look a designation up in the Designation Map (R23). -/
def State.lookup (s : State) (d : Half) : Except ReplyCode Nat :=
  if wellFormedDesignation d then
    match lookupMap s.dmap d with
    | some e => .ok e
    | none => .error .unknownElement
  else .error .badDesignation

/-- Look a route up by its key: start designation, destination designation, then the Route Table (R46). -/
def State.lookupRoute (s : State) (start dest : Half) (variant : Nat) : Except ReplyCode Nat :=
  match s.lookup start with
  | .error c => .error c
  | .ok a =>
    match s.lookup dest with
    | .error c => .error c
    | .ok b =>
      match s.findRoute a b variant with
      | some r => .ok r
      | none => .error .unknownRoute

/-- The route a five-byte payload names: start designation, destination designation, variant (section 12.5). -/
def State.payloadRoute (s : State) (p : List Byte) : Except ReplyCode Nat :=
  s.lookupRoute (halfAt p 0) (halfAt p 2) (byteAt p 4).toNat

/-- The element a payload's first field names. -/
def State.payloadElem (s : State) (p : List Byte) : Except ReplyCode Nat := s.lookup (halfAt p 0)

/-- Whether a variant byte lies within 0 to 3. -/
def variantInRange (b : Byte) : Bool := decide (b.toNat ≤ 3)

/-- The range checks of each request kind at step 5 of R166 (R192). For Load Table Segment, R179's bounds. -/
def Req.inRange (q : Req) (p : List Byte) : Bool :=
  match q with
  | .setRoute | .cancelRoute | .reSignal | .readRoute => variantInRange (byteAt p 4)
  | .movePoint => (sideOfCode (byteAt p 2).toNat).isSome
  | .auxPrepare | .auxConfirm =>
    match (byteAt p 0).toNat with
    | 1 => variantInRange (byteAt p 5)
    | 2 => true
    | 3 => (sideOfCode (byteAt p 6).toNat).isSome
    | 4 => true
    | _ => false
  | .acknowledgeIndications => byteAt p 0 == 0
  | .setReportMask => decide ((byteAt p 0).toNat < 8)
  | .loadTableSegment =>
    let t := byteAt p 0
    recordSize t != 0
      && decide ((halfAt p 1).toNat + (p.length - 3) / recordSize t ≤ tablePositions t)
  | _ => true

/-- The auxiliary command an Aux Prepare or Aux Confirm names, its target looked up (R157, R158 step 1). -/
def State.payloadAux (s : State) (p : List Byte) : Except ReplyCode AuxCmd :=
  match (byteAt p 0).toNat with
  | 1 => (s.lookupRoute (halfAt p 1) (halfAt p 3) (byteAt p 5).toNat).map .forcedRouteRelease
  | 2 => (s.lookup (halfAt p 1)).map .sectionReset
  | 3 =>
    match sideOfCode (byteAt p 6).toNat with
    | some side => (s.lookup (halfAt p 1)).map (fun e => .auxPointMove e side)
    | none => .error .outOfRange
  | 4 => (s.lookup (halfAt p 1)).map .forcedBorderClear
  | _ => .error .outOfRange

/-- The fields of a border transaction telegram's payload (section 12.3). -/
def borderTxOf (k : BorderKind) (p : List Byte) : BorderTx :=
  { kind := k, point := byteAt p 0, reference := byteAt p 1, reason := byteAt p 2, designation := halfAt p 3,
    variant := byteAt p 5 }

/-- A received Border Status entry (section 12.3, R191). -/
structure EntryIn where
  point : Nat
  home : Nbr
  entryProven : Bool
  onwardClear : Bool
  deriving DecidableEq, Repr

/-- The entries of a Border Status payload, in telegram order; flag bits 2 to 7 are not read (R191). -/
def statusEntries (p : List Byte) : List EntryIn :=
  (List.range (byteAt p 0).toNat).map (fun k =>
    let a := 1 + 3 * k
    { point := (byteAt p a).toNat, home := nbrOfCode (byteAt p (a + 1)),
      entryProven := (byteAt p (a + 2)).getLsbD 0, onwardClear := (byteAt p (a + 2)).getLsbD 1 })

/-- The ENTRY route an Offer names over a BORDER element of the link (R47). -/
def State.offerRoute (s : State) (e : Nat) (tx : BorderTx) : Option Nat :=
  match s.lookup tx.designation with
  | .error _ => none
  | .ok dest =>
    match s.findRoute e dest tx.variant.toNat with
    | some r => if s.routeKind r = some .entry then some r else none
    | none => none

end Sys2Proof.Machine
end

