-- ==== Sys2Proof/Machine/Ops.lean ====
section
/-! DEFINITION. The shared operations: writes of one record, deadlines (R59), sending, the report queue (R174 to R176),
the latches (R177), and the event record by which one command gathers what it does before the blocks are handed the
changes (R6, R174). -/

namespace Sys2Proof.Machine

/-! ### Writes of one record -/

/-- Write the runtime record of an element. -/
def State.setElem (s : State) (e : Nat) (r : Elem) : State := { s with elems := tblSet {} s.elems e r }
/-- Change the runtime record of an element. -/
def State.modElem (s : State) (e : Nat) (f : Elem → Elem) : State := s.setElem e (f (s.elem e))
/-- Write the blocked mark of an element; it is retained (R178). -/
def State.setBlocked (s : State) (e : Nat) (b : Bool) : State := { s with blocked := tblSet false s.blocked e b }
/-- Write the transaction record of a BORDER element. -/
def State.setTrans (s : State) (e : Nat) (t : TransRec) : State := { s with trans := tblSet {} s.trans e t }
/-- Write the runtime record of a route. -/
def State.setRoute (s : State) (r : Nat) (w : RouteRec) : State := { s with routes := tblSet {} s.routes r w }
/-- Change the runtime record of a route. -/
def State.modRoute (s : State) (r : Nat) (f : RouteRec → RouteRec) : State := s.setRoute r (f (s.route r))
/-- Write a setting context. -/
def State.setCtx (s : State) (c : Nat) (x : Option Ctx) : State := { s with contexts := tblSet none s.contexts c x }
/-- Write a release timer. -/
def State.setTimer (s : State) (t : Nat) (x : Option HeldTimer) : State :=
  { s with timers := tblSet none s.timers t x }
/-- Write a context timer. -/
def State.setCtxTimer (s : State) (c : Nat) (x : Option Timer) : State :=
  { s with ctxTimers := tblSet none s.ctxTimers c x }
/-- Write the last accepted life count of an FEC. -/
def State.setLife (s : State) (fec : Nat) (x : Option Byte) : State := { s with life := tblSet none s.life fec x }
/-- Write the link record of a port. -/
def State.setLink (s : State) (p : Port) (l : LinkRec) : State :=
  match p with
  | .c => { s with linkC := l }
  | .f => { s with linkF := l }
  | .b1 => { s with linkB1 := l }
  | .b2 => { s with linkB2 := l }

/-! ### Time -/

/-- The date of an event: the count of the first base tick at or after its instant (R57). -/
def State.date (s : State) : Nat := if s.atTick then s.tick else (s.tick + 1) % tickWrap

/-- The deadline of n base ticks set at an event (R59). -/
def State.deadlineAfter (s : State) (n : Nat) : Nat := (s.date + n) % tickWrap

/-- Whether a deadline passes at the base tick whose events are being taken (R59). -/
def State.passes (s : State) (d : Option Nat) : Bool := s.atTick && d == some s.tick

/-! ### Sending -/

/-- Send a telegram on a port. -/
def State.send (s : State) (p : Port) (t : Telegram) : State := { s with sent := s.sent ++ [⟨p, t⟩] }

/-- Send a Command Telegram with the commanded states of the four slots of an FEC (R11, R12). -/
def State.sendCommand (s : State) (fec : Nat) : State := s.send .f (.command fec (s.commandCodes fec))

/-! ### Latches and the report queue -/

/-- Set a latch, whatever the mask (R177). -/
def State.latch (s : State) (l : Latch) : State := { s with latches := setLatch s.latches l }

/-- A report that finds the queue full is lost (R176). -/
def State.loseReport (s : State) : State :=
  { s with
    latches := setLatch s.latches .reportOverrun
    lost := min (s.lost + 1) 65535
    notice := s.notice || s.mask.getLsbD Latch.reportOverrun.bit }

/-- A report takes a new place at the tail, or is lost (R174 steps 3 and 4). -/
def State.placeReport (s : State) (r : Report) : State :=
  if s.queue.length < 32 then { s with queue := s.queue ++ [r] } else s.loseReport

/-- Whether a queued report is the Element Report of an element. Two reports are of the same element where they carry the
same element index, whatever tables were in force when they were raised: the model's choice (DESIGN CHOICE, log entry
37). -/
def Report.isElement (e : Nat) : Report → Bool
  | .element r => r.elem == e
  | _ => false

/-- Offer a report to the queue (R174). The same element is the same element index (log entry 37). -/
def State.offer (s : State) (r : Report) : State :=
  if maskAllows s.mask r then
    match r with
    | .element er =>
      if s.queue.any (Report.isElement er.elem) then
        { s with queue := s.queue.map (fun q => if q.isElement er.elem then r else q) }
      else s.placeReport r
    | _ => s.placeReport r
  else s

/-- One use of a rule that takes its parts in a stated order, by numbered steps, by an ascending order or by the word
Then, and so gives their reports that order: the steps of a route's evaluation (R113) and of its full release (R133), a
failure and the Decline that follows it (R89), a Withdraw (R149) and a FORCED_BORDER_CLEAR (R154) with what follows them,
the crossing rule (R144), the records of a lost link (R152), the entry into SAFE_STOP (R188) and the Setting Engine's
part of it (R95). Which words give an order is read as log entry 5 says (DEDUCED). -/
inductive Sequence where
  | steps (r : Nat)
  | release (r : Nat)
  | failure (r : Nat)
  | withdrawn
  | forcedClear
  | crossing
  | linkLoss
  | safeStop
  | setting
  deriving DecidableEq, Repr

/-- What a report of one event comes from: the reports of one source keep their order (R174). The Setting Engine's, the
Route Monitor's and the mode's reports share a source, since R87, R114 and R188 order them. `linkUp` is the report of a
link that a telegram brings UP: the telegram is dealt with after the link has become UP (R34), so this report comes before
every other of the event. `part q k src` is a report of `src` that part k of the sequence q raises: it also keeps its order
with the reports of the other parts of q. -/
inductive Src where
  | elem (e : Nat)
  | fault
  | link
  | linkUp
  | route
  | border (l : Link)
  | aux
  | part (q : Sequence) (k : Nat) (src : Src)
  deriving DecidableEq, Repr

/-- The block's own source of a report. -/
def Src.base : Src → Src
  | .part _ _ src => src.base
  | src => src

/-- The sequences in which a report stands, each with the part that raised it. -/
def Src.parts : Src → List (Sequence × Nat)
  | .part q k src => (q, k) :: src.parts
  | _ => []

/-- A report that an event raises. -/
structure Offer where
  src : Src
  rep : Report
  deriving DecidableEq, Repr

/-- Whether the rules of the event order two reports, the first of which was raised first: the first is that of a link come
UP, or they come from one source, or from different parts of one sequence (R34, R174). -/
def Offer.ordered (a b : Offer) : Bool :=
  a.src == .linkUp || a.src.base == b.src.base || a.src.parts.any (fun p => b.src.parts.any (fun q => p.1 == q.1 && p.2 != q.2))

/-- The reports that may be offered next, each with the reports that then remain: those that no report raised before them
and still to be offered must precede. `held` are the reports raised before the ones given. -/
def readyOffers (held : List Offer) : List Offer → List (Report × List Offer)
  | [] => []
  | o :: t =>
    let later := readyOffers (held ++ [o]) t
    if held.any (fun a => a.ordered o) then later else (o.rep, held ++ t) :: later

/-- The order in which an event's reports are offered: the order that the rules of the event give, and where they give
none the free choice picks among the reports that may come next; nothing is chosen where there is one (R174, log entry
5). -/
def mergeOffers (event : Nat) : Nat → Nat → List Offer → List Report
  | 0, _, _ => []
  | n + 1, k, offers =>
    match readyOffers [] offers with
    | [] => []
    | [x] => x.1 :: mergeOffers event n (k + 1) x.2
    | x :: y :: more =>
      let ready := x :: y :: more
      let pick := ready.getD (Config.reportPick event k % ready.length) x
      pick.1 :: mergeOffers event n (k + 1) pick.2

/-! ### The event record -/

/-- One event being taken: the state before it, the state as it stands, the reports raised so far, and the routes that
reach the Route Monitor by a cause other than the hand-on of an element (R113). -/
structure Ev where
  before : State
  s : State
  offers : List Offer
  reached : List Nat
  deriving DecidableEq, Repr

/-- Begin an event. -/
def Ev.start (s : State) : Ev :=
  { before := s, s := { s with events := s.events + 1 }, offers := [], reached := [] }

/-- Change the state. -/
def Ev.on (ev : Ev) (f : State → State) : Ev := { ev with s := f ev.s }

/-- Raise a report. -/
def Ev.raise (ev : Ev) (src : Src) (r : Report) : Ev := { ev with offers := ev.offers ++ [⟨src, r⟩] }

/-- Act as part k of a sequence: the reports raised keep their order with those of its other parts (R174). -/
def Ev.part (ev : Ev) (q : Sequence) (k : Nat) (f : Ev → Ev) : Ev :=
  let done := f { ev with offers := [] }
  { done with offers := ev.offers ++ done.offers.map (fun o => { o with src := .part q k o.src }) }

/-- Act through the parts of a sequence in their order, numbered from k. -/
def Ev.inOrder (ev : Ev) (q : Sequence) (k : Nat) : List (Ev → Ev) → Ev
  | [] => ev
  | f :: rest => (ev.part q k f).inOrder q (k + 1) rest

/-- A route reaches the Route Monitor (R113). -/
def Ev.reach (ev : Ev) (r : Nat) : Ev := { ev with reached := r :: ev.reached }

/-- Latch a fault and raise its Fault Report (R177, section 12.7). -/
def Ev.fault (ev : Ev) (src : Src) (f : FaultReport) : Ev :=
  (ev.on (fun s => s.latch f.cls)).raise src (.fault f)

/-- ELEMENT_FAULT or SLOW_THROW of an element (R16, R17, R18, R27). -/
def Ev.elementFault (ev : Ev) (cls : Latch) (e : Nat) (cause : Half) : Ev :=
  ev.fault .fault { cls := cls, designation := ev.s.desig e, port := none, route := none, cause := cause }

/-- A Route Report with the fields of R74. The origin and the marks are those of the record given. -/
def Ev.routeReport (ev : Ev) (r : Nat) (w : RouteRec) (x : RouteEvent) : Ev :=
  ev.raise .route (.route
    { route := r, key := ev.s.routeKeyOf r, event := x, origin := w.origin, deferred := w.deferred,
      clamped := w.clamped })

/-- A Route Report on a route's record as it stands. -/
def Ev.routeEvent (ev : Ev) (r : Nat) (x : RouteEvent) : Ev := ev.routeReport r (ev.s.route r) x

/-- ROUTE_FAULT with its Fault Report (R114). -/
def Ev.routeFault (ev : Ev) (r e : Nat) (cause : FaultCause) : Ev :=
  ev.fault .route { cls := .routeFault, designation := ev.s.desig e, port := none, route := some r,
                    cause := cause.code }

/-! ### Points -/

/-- Write LEFT or RIGHT to a point's commanded state: the throw watch starts, or goes idle where the point reports that
end position (R15). -/
def State.commandPoint (s : State) (e : Nat) (side : Side) : State :=
  s.modElem e (fun r =>
    { r with
      pointCmd := side.cmd
      watch := if r.reported = side.reported then none else some (s.deadlineAfter (10 * (s.erow e).throwLimit)) })

/-- Write HOLD to a point's commanded state: the throw watch goes idle (R15). -/
def State.commandHold (s : State) (e : Nat) : State :=
  s.modElem e (fun r => { r with pointCmd := .hold, watch := none })

/-- Write an aspect to a signal's commanded state. -/
def State.commandAspect (s : State) (e : Nat) (a : Aspect) : State := s.modElem e (fun r => { r with aspect := a })

/-- Write the proven flag of a BORDER element (R138). -/
def State.writeProven (s : State) (e : Nat) (b : Bool) : State := s.modElem e (fun r => { r with proven := b })

/-- Clear the lock owner of an element. -/
def State.unlock (s : State) (e : Nat) : State := s.modElem e (fun r => { r with lockOwner := none })

/-- Set the lock owner of an element. -/
def State.lockTo (s : State) (r e : Nat) : State := s.modElem e (fun x => { x with lockOwner := some r })

/-- The elements whose lock owner is a route. -/
def State.lockedBy (s : State) (r : Nat) : List Nat :=
  (s.elems.filter (fun p => p.2.lockOwner == some r)).map (·.1)

/-- Clear every lock of a route (R90 step 1, R133 step 1). -/
def State.unlockAll (s : State) (r : Nat) : State := (s.lockedBy r).foldl State.unlock s

/-- The routes whose state is not FREE, ascending. -/
def State.activeRoutes (s : State) : List Nat :=
  (s.routes.filter (fun p => p.2.state != .free)).map (·.1)

/-- The mode changes: the Mode Report is raised and SAFE_N follows the mode (R182). -/
def Ev.enterMode (ev : Ev) (m : Mode) (cause : ModeCause) : Ev :=
  (ev.on (fun s => { s with mode := m, safeN := decide (m = .startup ∨ m = .operational) })).raise .route
    (.mode (some ev.s.mode) m cause)

end Sys2Proof.Machine
end

