-- ==== Sys2Proof/Machine/Timers.lean ====
section
/-! DEFINITION. The Time Base and Release Timer Pool: settings (R61 to R64), counting (R60), the release timer pool and
its wait list (R65 to R69), context timers (R70) and the aux window timer (R71). -/

namespace Sys2Proof.Machine

/-- What the TB hands to a requester (R63). -/
structure Setting where
  rate : Nat
  preload : Nat
  clamped : Bool
  deriving DecidableEq, Repr

/-- The period of rate tick k in milliseconds (R58). -/
def ratePeriod (k : Nat) : Nat := 10 * 2 ^ k

/-- N_k of a required time: the number of counted rate-k ticks to the expiry (R63). -/
def ticksNeeded (tms k : Nat) : Nat := (tms + ratePeriod k - 1) / ratePeriod k + 1

/-- The setting of a required time: the smallest rate whose N_k is at most 256, else the clamp (R63, R64). -/
def timerSetting (tms : Nat) : Setting :=
  match (List.range 8).find? (fun k => decide (ticksNeeded tms k ≤ 256)) with
  | some k => { rate := k, preload := 256 - ticksNeeded tms k, clamped := false }
  | none => { rate := 7, preload := 0, clamped := true }

/-- The approach release time of a route in tenths of a second: ceil(36 L / V) + 10 M (R61). -/
def approachTenths (w : RouteRow) : Nat := (36 * w.length + w.speed - 1) / w.speed + 10 * w.margin

/-- The required time of a release timer in milliseconds, read from the tables as they stand (R61, R62). -/
def State.requiredMs (s : State) (r : Nat) : Purpose → Nat
  | .none => 0
  | .approach => 100 * approachTenths (s.rrow r)
  | .overlap => 1000 * (s.rrow r).ovTime
  | .forced => 1000 * siteForcedTime s.store

/-- Start a timer with a setting (R60). A start at the instant of a base tick does not count that tick. -/
def State.startTimer (s : State) (x : Setting) : Timer :=
  { rate := x.rate, count := BitVec.ofNat 8 x.preload, bornAt := if s.atTick then some s.tick else none,
    expired := false }

/-- One rate-k tick reaches a timer: the count of a running timer of that rate rises, and the step from 255 to 0 is its
expiry, at which it stops (R60). -/
def Timer.count1 (k tick : Nat) (t : Timer) : Timer :=
  if t.rate = k ∧ t.expired = false ∧ t.bornAt ≠ some tick then
    { t with count := t.count + 1, expired := decide (t.count = 255) }
  else t

/-- A release timer is taken by a route for a purpose and started with its setting (R66, R67). -/
def State.grantTimer (s : State) (t r : Nat) (p : Purpose) : State :=
  let x := timerSetting (s.requiredMs r p)
  (s.setTimer t (some { owner := r, purpose := p, timer := s.startTimer x })).modRoute r
    (fun w => { w with timer := some t, purpose := p, deferred := false, clamped := x.clamped })

/-- A release timer becomes free: the head of the wait list takes it at once (R67). -/
def State.freeTimer (s : State) (t : Nat) : State :=
  match s.waitList with
  | [] => s.setTimer t none
  | w :: rest => { s.setTimer t none with waitList := rest }.grantTimer t w.route w.purpose

/-- A route's release timer fields when it holds no timer and stands on no wait list. -/
def RouteRec.noTimer (w : RouteRec) : RouteRec :=
  { w with timer := none, purpose := .none, deferred := false, clamped := false }

/-- A free request (R69). Log entry 16: the removal of a wait-list entry also sets the route's purpose to none. -/
def State.freeRequest (s : State) (r : Nat) : State :=
  match (s.route r).timer with
  | some t => (s.modRoute r RouteRec.noTimer).freeTimer t
  | none =>
    if s.waitList.any (fun w => w.route == r) then
      { s.modRoute r RouteRec.noTimer with waitList := s.waitList.filter (fun w => w.route != r) }
    else s

/-- The TB's answer to a release timer request (R66). -/
inductive Answer where
  | immediate | granted | deferred
  deriving DecidableEq, Repr

/-- A release timer request (R66). -/
def State.timerRequest (s : State) (r : Nat) (p : Purpose) : State × Answer :=
  if s.requiredMs r p = 0 then (s.freeRequest r, .immediate)
  else
    match (s.route r).timer with
    | some t => (s.grantTimer t r p, .granted)
    | none =>
      if s.waitList.any (fun w => w.route == r) then
        ({ s.modRoute r (fun w => { w with purpose := p }) with
           waitList := s.waitList.map (fun w => if w.route = r then { w with purpose := p } else w) }, .deferred)
      else
        match (List.range 32).find? (fun t => (s.timerOf t).isNone) with
        | some t => (s.grantTimer t r p, .granted)
        | none =>
          ({ s.modRoute r (fun w => { w with purpose := p, deferred := true }) with
             waitList := s.waitList ++ [⟨r, p⟩] }, .deferred)

/-- Start a context timer with the BORDER_REPLY purpose (R70). -/
def State.startCtxTimer (s : State) (c : Nat) : State :=
  s.setCtxTimer c (some (s.startTimer (timerSetting (1000 * siteReplyTime s.store))))

/-- Start the aux window timer (R71). -/
def State.startAuxTimer (s : State) : State :=
  { s with auxTimer := some (s.startTimer (timerSetting (1000 * siteAuxTime s.store))) }

/-- The rate-k tick of the base tick: it advances every running timer set to its rate (R58, R60). -/
def State.rateTick (s : State) (k : Nat) : State :=
  let f := Timer.count1 k s.tick
  { s with
    timers := s.timers.map (fun p => (p.1, p.2.map (fun h => { h with timer := f h.timer })))
    ctxTimers := s.ctxTimers.map (fun p => (p.1, p.2.map f))
    auxTimer := s.auxTimer.map f }

end Sys2Proof.Machine
end

