-- ==== Sys2Proof/Machine/Flank.lean ====
section
/-! DEFINITION. The Flank Resolver: availability (R100, R101), chain walks (R102, R103), making claims (R104), proof of
claims (R106) and dropping them (R107 to R109). -/

namespace Sys2Proof.Machine

/-- The position a route's own path or overlap list requires of a point. -/
def State.ownRequired (s : State) (r e : Nat) : Option Side :=
  let w := s.rrow r
  match (pathOf s.store w ++ overlapOf s.store w).find? (fun x => x.target == e) with
  | some x => sideOfCode x.position
  | none => none

/-- The flank state of an end position. -/
def Side.flank : Side → FlankState
  | .left => .left
  | .right => .right

/-- The end position a flank state demands, none for DANGER. -/
def FlankState.side : FlankState → Option Side
  | .left => some .left
  | .right => some .right
  | .danger => none

/-- How many records already resolved name an element. -/
def resolvedCount (res : List FlankRec) (e : Nat) : Nat := (res.filter (fun f => f.elem == e)).length

/-- Whether a POINT entry is available in a position to the route being reserved, the records resolved so far counted
(R100). -/
def State.pointAvailable (s : State) (r : Nat) (res : List FlankRec) (e : Nat) (side : Side) : Bool :=
  let x := s.elem e
  s.holds e .inControl && !s.holds e .fault
    && !(x.lockOwner.isSome && x.pointCmd == side.other.cmd)
    && s.ownRequired r e != some side.other
    && x.claimed != some side.other
    && !(res.any (fun f => f.elem == e && f.state == side.other.flank))
    && decide (x.claims + resolvedCount res e < 15)
    && (s.atSide e side || (!s.holds e .blocked && s.holds (s.erow e).sect .vacant))

/-- Whether a SIGNAL is the start element of a route whose state is not FREE. -/
def State.startsActive (s : State) (e : Nat) : Bool := s.activeRoutes.any (fun r => (s.rrow r).start == e)

/-- Whether a SIGNAL entry is available (R101). -/
def State.signalAvailable (s : State) (res : List FlankRec) (e : Nat) : Bool :=
  let x := s.elem e
  s.holds e .inControl && x.aspect == .danger && !s.holds e .lampFault && !s.startsActive e
    && decide (x.claims + resolvedCount res e < 15)

/-- Whether a flank entry is available to the route being reserved (R100, R101). -/
def State.flankAvailable (s : State) (r : Nat) (res : List FlankRec) (f : FlankRow) : Bool :=
  match s.kind f.elem, f.state with
  | some .point, some .left => s.pointAvailable r res f.elem .left
  | some .point, some .right => s.pointAvailable r res f.elem .right
  | some .signal, some .danger => s.signalAvailable res f.elem
  | _, _ => false

/-- Walk a chain: the first available entry, of at most as many entries as the first number says (R102). -/
def State.walkChain (s : State) (r : Nat) (res : List FlankRec) : Nat → Nat → Option (Nat × FlankState)
  | 0, _ => none
  | n + 1, i =>
    let f := flankRow s.store i
    if s.flankAvailable r res f then f.state.map (fun st => (f.elem, st))
    else
      match f.next with
      | some j => s.walkChain r res n j
      | none => none

/-- Resolve flank requirements in stored order, each walk counting the records before it. A failure names the
protecting element of the failing requirement's head (R103). -/
def State.resolveFlank (s : State) (r : Nat) (res : List FlankRec) : List ListRow → Except Nat (List FlankRec)
  | [] => .ok res
  | q :: rest =>
    match s.walkChain r res 4 q.target with
    | some (e, st) => s.resolveFlank r (res ++ [{ elem := e, state := st, group := q.relGroup }]) rest
    | none => .error (flankRow s.store q.target).elem

/-- Make one claim on its element (R104): the count is raised and a point's claimed position becomes the required
state. -/
def State.makeClaim (s : State) (f : FlankRec) : State :=
  s.modElem f.elem (fun x =>
    { x with claims := x.claims + 1, claimed := match f.state.side with | some p => some p | none => x.claimed })

/-- Drop one claim from its element (R107 steps 2 and 3). -/
def State.dropClaim (s : State) (f : FlankRec) : State :=
  s.modElem f.elem (fun x =>
    { x with claims := x.claims - 1, claimed := if x.claims - 1 = 0 then none else x.claimed })

/-- Drop the claims of a route whose records meet a test, in list order (R107, R108). -/
def State.dropClaims (s : State) (r : Nat) (p : FlankRec → Bool) : State :=
  let l := (s.route r).flank
  ((l.filter p).foldl State.dropClaim s).modRoute r (fun w => { w with flank := l.filter (fun f => !p f) })

/-- Whether a flank record is proven (R106). -/
def State.flankProven (s : State) (f : FlankRec) : Bool :=
  s.holds f.elem .inControl &&
    (match f.state with
     | .left => s.holds f.elem .atLeft
     | .right => s.holds f.elem .atRight
     | .danger => s.holds f.elem .dangerProven)

end Sys2Proof.Machine
end

