-- ==== Sys2Proof/Machine/BorderOps.lean ====
section
/-! DEFINITION. The Border Link Controllers' shared operations: Border Reports (R140), sending transaction telegrams
(R141, R142, R148, R150), Border Status (R137, R138) and recovery (R153). -/

namespace Sys2Proof.Machine

/-- Raise a Border Report on a link (R140). -/
def Ev.borderReport (ev : Ev) (l : Link) (r : BorderReport) : Ev := ev.raise (.border l) (.border r)

/-- A transaction telegram other than an Offer: designation 0x0000 and variant 0 (section 12.3). -/
def plainTx (k : BorderKind) (point reference reason : Byte) : BorderTx :=
  { kind := k, point := point, reference := reference, reason := reason, designation := 0, variant := 0 }

/-- Send a transaction telegram on a link, whatever the link's state (R141). -/
def Ev.sendBorder (ev : Ev) (l : Link) (tx : BorderTx) : Ev := ev.on (fun s => s.send l.port (.transaction tx))

/-- The border point number of a BORDER element as it is sent. -/
def State.pointByte (s : State) (e : Nat) : Byte := BitVec.ofNat 8 (s.erow e).slot

/-- The transaction of a BORDER element changes, and a Border Report is raised with the state before and after
(R140). -/
def Ev.changeTrans (ev : Ev) (l : Link) (e : Nat) (t : TransRec) (reference : Byte) (cause : BorderCause)
    (reason : Option Byte) : Ev :=
  (ev.on (fun s => s.setTrans e t)).borderReport l
    { designation := ev.s.desig e, link := l, point := ev.s.pointByte e, before := some (ev.s.transOf e).state,
      after := some t.state, reference := reference, cause := cause, reason := reason }

/-- A Border Report with the transaction's state unchanged, for a Decline or a too-late Withdraw sent (R143, R146,
R156). Where no BORDER element of the link carries the number, it names none (log entry 20). -/
def Ev.unchangedReport (ev : Ev) (l : Link) (e : Option Nat) (tx : BorderTx) : Ev :=
  ev.borderReport l
    { designation := match e with | some i => ev.s.desig i | none => 0, link := l, point := tx.point,
      before := e.map (fun i => (ev.s.transOf i).state), after := e.map (fun i => (ev.s.transOf i).state),
      reference := tx.reference, cause := .sent tx.kind, reason := some tx.reason }

/-- Send a Decline, which changes no transaction state (R143). -/
def Ev.sendDecline (ev : Ev) (l : Link) (e : Option Nat) (point reference : Byte) (reason : Reason) : Ev :=
  let tx := plainTx .decline point reference reason.code
  (ev.sendBorder l tx).unchangedReport l e tx

/-- Send Withdraw as the answer to an Accept that is too late; the record is unchanged (R146). -/
def Ev.sendTooLate (ev : Ev) (l : Link) (e : Nat) (point reference : Byte) : Ev :=
  let tx := plainTx .withdraw point reference Reason.borderTimeout.code
  (ev.sendBorder l tx).unchangedReport l (some e) tx

/-- Send Withdraw under our reference and make the transaction IDLE (R148). -/
def Ev.sendWithdraw (ev : Ev) (l : Link) (e : Nat) (reference : Byte) (reason : Reason) : Ev :=
  (ev.sendBorder l (plainTx .withdraw (ev.s.pointByte e) reference reason.code)).changeTrans l e {} reference
    (.sent .withdraw) (some reason.code)

/-- Send Handback under our reference and make the transaction IDLE (R150). -/
def Ev.sendHandback (ev : Ev) (l : Link) (e : Nat) (reference : Byte) : Ev :=
  (ev.sendBorder l (plainTx .handback (ev.s.pointByte e) reference 0)).changeTrans l e {} reference
    (.sent .handback) none

/-- Send Accept under the neighbour's reference and make the transaction IN_HELD (R88). -/
def Ev.sendAccept (ev : Ev) (l : Link) (e : Nat) (reference : Byte) : Ev :=
  let tx := plainTx .accept (ev.s.pointByte e) reference 0
  (ev.sendBorder l tx).changeTrans l e { state := .inHeld, reference := some reference, lastSent := some tx }
    reference (.sent .accept) none

/-- The Offer reference count of a link (R136). -/
def State.offerRef (s : State) : Link → Byte
  | .b1 => s.offerRef1
  | .b2 => s.offerRef2

/-- Write the Offer reference count of a link. -/
def State.setOfferRef (s : State) (l : Link) (b : Byte) : State :=
  match l with
  | .b1 => { s with offerRef1 := b }
  | .b2 => { s with offerRef2 := b }

/-- The Offer of an EXIT route over its destination BORDER element: the count raised by one is the reference, the
designation is the element's own (R142). -/
def State.offerTx (s : State) (l : Link) (e variant : Nat) : BorderTx :=
  { kind := .offer, point := s.pointByte e, reference := s.offerRef l + 1, reason := 0, designation := s.desig e,
    variant := BitVec.ofNat 8 variant }

/-- Send an Offer and make the transaction OFFER_SENT (R142). -/
def Ev.sendOffer (ev : Ev) (l : Link) (e variant : Nat) : Ev :=
  let tx := ev.s.offerTx l e variant
  ((ev.on (fun s => s.setOfferRef l tx.reference)).sendBorder l tx).changeTrans l e
    { state := .offerSent, reference := some tx.reference, lastSent := some tx } tx.reference (.sent .offer) none

/-- Whether an ENTRY route that starts at an element is CLEARED with the commanded aspect PROCEED (R138). -/
def State.entryProceeds (s : State) (e : Nat) : Bool :=
  s.activeRoutes.any (fun r =>
    s.routeKind r == some .entry && (s.rrow r).start == e && (s.route r).state == .cleared
      && (s.route r).aspect == .proceed)

/-- The entry of an outgoing Border Status for a BORDER element, read from the image (R138). -/
def State.statusEntry (s : State) (e : Nat) : StatusEntry :=
  let home := (s.erow e).sect
  { point := (s.erow e).slot
    home :=
      if s.holds home .inControl && s.holds home .vacant then .vacant
      else if s.holds home .inControl && s.holds home .occupied then .occupied
      else .unknown
    entryProven := (s.elem e).proven
    onwardClear := (s.elem e).proven && s.entryProceeds e }

/-- Send a Border Status: one entry for each BORDER element of the link, in ascending border point number (R137). -/
def State.sendBorderStatus (s : State) (l : Link) : State :=
  s.send l.port (.borderStatus ((s.linkElems l).map s.statusEntry))

/-- At recovery, re-send the last telegram of a transaction record that is not IDLE (R153). -/
def State.resend (s : State) (l : Link) (e : Nat) : State :=
  if (s.transOf e).state = .idle then s
  else
    match (s.transOf e).lastSent with
    | some tx => s.send l.port (.transaction tx)
    | none => s

/-- The link has become UP: one Border Status, then the last telegrams in ascending border point number (R153). -/
def State.borderLinkUp (s : State) (l : Link) : State :=
  (s.linkElems l).foldl (fun s e => s.resend l e) (s.sendBorderStatus l)

end Sys2Proof.Machine
end

