-- ==== Sys2Proof/Machine/Monitor.lean ====
section
/-! DEFINITION. The Route Monitor's shared operations: clear conditions (R115), aspects (R117), train entry (R121 to
R123), sectional release (R127 to R131), overlap and full release (R132 to R134), forced release (R135), and the
evaluation of a route at an event (R113). -/

namespace Sys2Proof.Machine

/-- Whether a route is in the Route Monitor's hands (section 7.1). -/
def RState.inMonitor : RState → Bool
  | .locked | .cleared | .inUse | .cancelling | .overlapHeld => true
  | .free | .queued | .setting => false

/-- Whether the start element of a route is a BORDER: the route's kind is ENTRY (R41). -/
def State.isEntry (s : State) (r : Nat) : Bool := s.routeKind r == some .entry

/-- Command an aspect for a route: the start signal's commanded state or, for an ENTRY route, its start BORDER element's
proven flag, set for every aspect but DANGER; and the route's commanded aspect (R116, R119, R122, R124, R135). -/
def State.writeAspect (s : State) (r : Nat) (a : Aspect) : State :=
  let e := (s.rrow r).start
  let s := if s.isEntry r then s.writeProven e (a != .danger) else s.commandAspect e a
  s.modRoute r (fun w => { w with aspect := a })

/-- Whether a route's PATH entry of a SECTION stands on the list, with its element. -/
def State.isSection (s : State) (x : ListRow) : Bool := s.kind x.target == some .sect

/-- The PATH entries of SECTIONs of a route, in stored order. -/
def State.pathSections (s : State) (r : Nat) : List ListRow := (pathOf s.store (s.rrow r)).filter s.isSection

/-- The first section of group 1: the first PATH entry in stored order whose element is a SECTION (R44). -/
def State.firstSection (s : State) (r : Nat) : Option Nat := ((s.pathSections r).head?).map (·.target)

/-- The approach test of a route (R45). -/
def State.approachTest (s : State) (r : Nat) : Bool :=
  (approachOf s.store (s.rrow r)).all (fun x => s.clearOf x.target && s.extraTest x)

/-- The clear condition of a path or overlap entry: a SECTION holds IN_CONTROL and VACANT, a POINT IN_CONTROL and its
required position (R115). -/
def State.entryClear (s : State) (x : ListRow) : Bool :=
  match s.kind x.target, sideOfCode x.position with
  | some .sect, _ => s.clearOf x.target
  | some .point, some side => s.holds x.target .inControl && s.atSide x.target side
  | some .point, none => false
  | _, _ => true

/-- The clear conditions of a route in the order in which they are tested, each with the element a REVERTED report
names (R115). -/
def State.clearConditions (s : State) (r : Nat) : List (Nat × Bool) :=
  let w := s.rrow r
  [(w.start, s.mode == .operational),
   (w.start,
     if s.isEntry r then s.holds w.start .inControl && s.holds w.start .inboundHeld
     else s.holds w.start .inControl && !s.holds w.start .lampFault)]
  ++ (pathOf s.store w).map (fun x => (x.target, s.entryClear x))
  ++ (overlapOf s.store w).map (fun x => (x.target, s.entryClear x))
  ++ [(w.dest,
        if s.routeKind r == some .exit then
          s.holds w.dest .inControl && s.holds w.dest .borderHeld && s.holds w.dest .entryProven
        else s.holds w.dest .inControl && !s.holds w.dest .lampFault)]
  ++ (s.route r).flank.map (fun f => (f.elem, s.flankProven f))

/-- The element of the first failing condition, none where the clear conditions hold (R115). -/
def State.firstFailing (s : State) (r : Nat) : Option Nat :=
  ((s.clearConditions r).find? (fun p => !p.2)).map (·.1)

/-- Whether a route that starts at an element is CLEARED. -/
def State.clearedFrom (s : State) (e : Nat) : Bool :=
  s.activeRoutes.any (fun r => (s.rrow r).start == e && (s.route r).state == .cleared)

/-- The aspect of a CLEARED route (R117). -/
def State.aspectOf (s : State) (r : Nat) : Aspect :=
  let dest := (s.rrow r).dest
  match s.routeKind r with
  | some .shunt => .shuntProceed
  | some .exit => if s.holds dest .onwardClear then .proceed else .caution
  | _ => if s.clearedFrom dest then .proceed else .caution

/-- The state of release group g of a route (R127). -/
def RouteRec.groupState (w : RouteRec) (g : Nat) : GroupState := w.groups.getD (g - 1) .reserved

/-- Write the state of release group g. -/
def RouteRec.setGroup (w : RouteRec) (g : Nat) (x : GroupState) : RouteRec :=
  { w with groups := w.groups.set (g - 1) x }

/-- Whether a group is OCCUPIED_SEEN or RELEASED. -/
def GroupState.entered : GroupState → Bool
  | .reserved => false
  | .seen | .released => true

/-- Whether a group holds VACANT (R127). -/
def State.groupVacant (s : State) (r g : Nat) : Bool :=
  ((s.pathSections r).filter (fun x => x.group == g)).all (fun x => s.clearOf x.target)

/-- Whether the three conditions of a group's release hold (R129, R130). -/
def State.releaseReady (s : State) (r g : Nat) : Bool :=
  let w := s.rrow r
  (s.route r).groupState g == .seen && s.groupVacant r g &&
    (if g < w.groups then ((s.route r).groupState (g + 1)).entered else s.holds w.berth .occupied)

/-- A SECTION becomes OCCUPIED at an event (R121). -/
def becomesOccupied (before after : State) (e : Nat) : Bool :=
  after.holds e .occupied && !before.holds e .occupied

/-- The border side of a full release: an EXIT route in HELD_OUT sends Handback where its train had entered and Withdraw
where none had; an ENTRY route's transaction is left as it stands (R134, R151). -/
def Ev.borderRelease (ev : Ev) (r : Nat) (entered : Bool) : Ev :=
  let e := (ev.s.rrow r).dest
  if ev.s.routeKind r = some .exit then
    match ev.s.elemLink e, (ev.s.transOf e).state, (ev.s.transOf e).reference with
    | some l, .heldOut, some ref => if entered then ev.sendHandback l e ref else ev.sendWithdraw l e ref .cancelled
    | _, _, _ => ev
  else ev

/-- Full release, in the order of the steps of R133: the Border Report of step 4 stands before the RELEASED of step
6. -/
def Ev.fullRelease (ev : Ev) (r : Nat) : Ev :=
  let w := ev.s.route r
  let ev := ev.on (fun s => ((s.unlockAll r).dropClaims r (fun _ => true)).freeRequest r)
  ev.inOrder (.release r) 1
    [fun ev => ev.borderRelease r (w.groups.any GroupState.entered),
     fun ev => (ev.on (fun s => s.setRoute r {})).routeReport r { w with deferred := false, clamped := false } .released]

/-- The signal of a route goes back to DANGER, or its proven flag is cleared; the route may stay in the RM's hands. -/
def Ev.toDanger (ev : Ev) (r : Nat) : Ev := ev.on (fun s => s.writeAspect r .danger)

/-- A release timer request whose answer IMMEDIATE is taken as an expiry: full release (R63, R126). Otherwise the given
event is reported with the marks of the answer. -/
def Ev.timedWait (ev : Ev) (r : Nat) (p : Purpose) (x : RouteEvent) : Ev :=
  match ev.s.timerRequest r p with
  | (s, .immediate) => (ev.on (fun _ => s)).fullRelease r
  | (s, _) => (ev.on (fun _ => s)).routeEvent r x

/-- Forced release at the Route Monitor (R135). -/
def Ev.forcedRelease (ev : Ev) (r : Nat) : Ev :=
  let ev := (ev.toDanger r).on (fun s => s.modRoute r (fun w => { w with clearWanted := false, state := .cancelling }))
  (ev.timedWait r .forced (.cancelling .forced)).reach r

/-- Revert a CLEARED route; the report names the element given (R119). -/
def Ev.revert (ev : Ev) (r e : Nat) : Ev :=
  ((ev.toDanger r).on (fun s => s.modRoute r (fun w => { w with state := .locked, clearWanted := false }))).routeEvent
    r (.reverted (ev.s.desig e))

/-- The changes of R122 steps 1 and 2. -/
def Ev.enterRoute (ev : Ev) (r : Nat) : Ev :=
  (ev.toDanger r).on (fun s => s.modRoute r (fun w => { (w.setGroup 1 .seen) with state := .inUse }))

/-- Step 1 of R113: train entry (R122, R123). That the free request of a route in CANCELLING comes before the two Route
Reports, which so show its DEFERRED and CLAMPED marks clear, is the model's choice (DESIGN CHOICE, log entry 36). -/
def Ev.stepEntry (ev : Ev) (r : Nat) : Ev :=
  let w := ev.s.route r
  match ev.s.firstSection r with
  | none => ev
  | some e =>
    if becomesOccupied ev.before ev.s e then
      let start := (ev.s.rrow r).start
      let danger := RouteEvent.signalPassedAtDanger (ev.s.desig start)
      match w.state with
      | .cleared =>
        ((ev.enterRoute r).on (fun s => s.modRoute r (fun w => { w with clearWanted := false }))).routeEvent r .inUse
      | .locked =>
        (((ev.routeFault r start .signalPassedAtDanger).enterRoute r).routeEvent r danger).routeEvent r .inUse
      | .cancelling =>
        if w.purpose = .forced then (ev.routeFault r start .signalPassedAtDanger).routeEvent r danger
        else
          ((((ev.routeFault r start .signalPassedAtDanger).enterRoute r).on
            (fun s => s.freeRequest r)).routeEvent r danger).routeEvent r .inUse
      | _ => ev
    else ev

/-- Whether group states are evaluated: in LOCKED, CLEARED, IN_USE, and CANCELLING with purpose APPROACH or none
(R127). -/
def RouteRec.groupsLive (w : RouteRec) : Bool :=
  match w.state with
  | .locked | .cleared | .inUse => true
  | .cancelling => w.purpose != .forced
  | _ => false

/-- One path section that became OCCUPIED (R128); `first` says that it is the first section of group 1, whose
occupation is the train's entry. -/
def Ev.markSection (ev : Ev) (r : Nat) (first : Bool) (x : ListRow) : Ev :=
  let w := ev.s.route r
  let g := x.group
  if first || w.groupState g != .reserved then ev
  else if decide (2 ≤ g) && (w.groupState (g - 1)).entered then
    ev.on (fun s => s.modRoute r (fun w => w.setGroup g .seen))
  else
    (ev.routeFault r x.target .unexpectedOccupancy).routeEvent r
      (.unexpectedOccupancy (ev.s.desig x.target) g)

/-- Step 2 of R113: group occupation marks and unexpected occupancy (R128). -/
def Ev.stepMarks (ev : Ev) (r : Nat) : Ev :=
  let first := ev.s.firstSection r
  let hit := (ev.s.pathSections r).filter (fun x => becomesOccupied ev.before ev.s x.target)
  hit.foldl (fun ev x =>
    if (ev.s.route r).groupsLive then ev.markSection r (first == some x.target) x else ev) ev

/-- The state effects of the release of group g (R131 steps 1 to 4). -/
def State.releaseGroup (s : State) (r g : Nat) : State :=
  let w := s.rrow r
  let es := ((pathOf s.store w).filter (fun x => x.group == g)).map (·.target)
  let es := if g = 1 ∧ s.kind w.start = some .signal then es ++ [w.start] else es
  ((es.foldl State.unlock s).dropClaims r (fun f => f.group == .group g)).modRoute r (fun w => w.setGroup g .released)

/-- The overlap is released: its locks are cleared and its claims dropped (R132). -/
def State.releaseOverlap (s : State) (r : Nat) : State :=
  (((overlapOf s.store (s.rrow r)).map (·.target)).foldl State.unlock s).dropClaims r (fun f => f.group == .overlap)

/-- The overlap is released and the route released in full (R132). -/
def Ev.endOverlap (ev : Ev) (r : Nat) : Ev := (ev.on (fun s => s.releaseOverlap r)).fullRelease r

/-- Steps 3 and 4 of R113: the groups whose release conditions have come to hold at this event are released in ascending
number; after the last group the overlap is held or released. The GROUP_RELEASED of the last group carries the marks of
the TB's answer (R129 to R132), and stands before the reports of a full release that follows it in step 4. -/
def Ev.stepRelease (ev : Ev) (r : Nat) : Ev :=
  if (ev.s.route r).groupsLive then
    let total := (ev.s.rrow r).groups
    let gs := ((List.range total).map (· + 1)).filter
      (fun g => ev.s.releaseReady r g && !ev.before.releaseReady r g)
    match gs.reverse with
    | [] => ev
    | last :: _ =>
      let ev := ev.on (fun s => gs.foldl (fun s g => s.releaseGroup r g) s)
      let ev := gs.dropLast.foldl (fun ev g => ev.routeEvent r (.groupReleased g)) ev
      if (ev.s.route r).groups.all (· == .released) then
        if (ev.s.rrow r).ovTime = 0 then
          (ev.part (.release r) 0 (fun ev => ev.routeEvent r (.groupReleased last))).endOverlap r
        else
          (ev.on (fun s => s.modRoute r (fun w => { w with state := .overlapHeld }))).timedWait r .overlap
            (.groupReleased last)
      else ev.routeEvent r (.groupReleased last)
  else ev

/-- Step 5 of R113: clearing (R116), revert (R119), and the release of a CANCELLING route of purpose none whose start
signal holds DANGER_PROVEN (R125). That this release has its place in step 5, so that a train entry of the same event is
taken first, is the model's choice (DESIGN CHOICE, log entry 35). The aspect of a CLEARED report is filled in when every
route has been settled. -/
def Ev.stepClear (ev : Ev) (r : Nat) : Ev :=
  let w := ev.s.route r
  match w.state with
  | .locked =>
    if w.clearWanted && (ev.s.firstFailing r).isNone then
      (ev.on (fun s => s.modRoute r (fun w => { w with state := .cleared, wasCleared := true }))).routeEvent r
        (.cleared .danger)
    else ev
  | .cleared =>
    match ev.s.firstFailing r with
    | some e => ev.revert r e
    | none => ev
  | .cancelling =>
    if w.purpose = .none ∧ ev.s.holds (ev.s.rrow r).start .dangerProven = true then ev.fullRelease r else ev
  | _ => ev

/-- Whether a report is a Fault Report. -/
def Offer.isFault (o : Offer) : Bool :=
  match o.rep with
  | .fault _ => true
  | _ => false

/-- Steps 1 to 5 of R113 for one route, in their order; its Fault Reports go before its Route Reports of the event
(R114). Train entry and group marks are taken only of a route that was in the RM's hands before the event (R123; log entry
14). -/
def Ev.evalRoute (ev : Ev) (r : Nat) : Ev :=
  let steps : List (Ev → Nat → Ev) :=
    if (ev.before.route r).state.inMonitor then [Ev.stepEntry, Ev.stepMarks, Ev.stepRelease, Ev.stepClear]
    else [Ev.stepRelease, Ev.stepClear]
  let done := ({ ev with offers := [] } : Ev).inOrder (.steps r) 1 (steps.map (fun f ev => f ev r))
  { done with
    offers := ev.offers ++ done.offers.filter Offer.isFault ++ done.offers.filter (fun o => !o.isFault) }

end Sys2Proof.Machine
end

