-- ==== Sys2Proof/Machine/Setting.lean ====
section
/-! DEFINITION. The Setting Engine's shared operations: the reservation tests (R50 to R53), reservation (R80 to R84),
the awaited set (R85, R86), completion (R87, R88), failure (R89, R90) and the ends of queued requests (R92, R94, R95). -/

namespace Sys2Proof.Machine

/-- A default test that failed: its reason and the element it names. -/
abbrev Refused := Reason × Nat

/-- The first of a list of tests that fails. -/
def firstRefused : List (Bool × Refused) → Option Refused
  | [] => none
  | (passes, x) :: rest => if passes then firstRefused rest else some x

/-- The tests of a SECTION on the path (`path` set) or overlap list (R50). -/
def State.testSection (s : State) (path : Bool) (x : ListRow) : Option Refused :=
  let e := x.target
  firstRefused
    [(!s.holds e .routeLocked, (.conflict, e)),
     (s.holds e .inControl, (.conditionFailed, e)),
     (!path || s.holds e .vacant, (.conditionFailed, e)),
     (!s.holds e .blocked, (.conditionFailed, e)),
     (!path || !s.holds e .restorePending, (.conditionFailed, e)),
     (s.extraTest x, (.conditionFailed, e))]

/-- The tests of a POINT on the path or overlap list against the entry's required position (R51). Each test names the
point. Step 6 reads the point section, and R53 has the refusal name "that test's element": that the point of the entry is
named there too, and not its point section, is the model's choice (DESIGN CHOICE, log entry 39). -/
def State.testPoint (s : State) (x : ListRow) (side : Side) : Option Refused :=
  let e := x.target
  firstRefused
    [(!s.holds e .routeLocked, (.conflict, e)),
     (!s.holds e .flankClaimed || (s.elem e).claimed == some side, (.conflict, e)),
     (s.holds e .inControl, (.conditionFailed, e)),
     (!s.holds e .fault, (.conditionFailed, e)),
     (!s.holds e .blocked || s.atSide e side, (.conditionFailed, e)),
     (s.atSide e side || s.holds (s.erow e).sect .vacant, (.conditionFailed, e)),
     (s.extraTest x, (.conditionFailed, e))]

/-- The tests of one path or overlap entry (R50, R51). A verified list holds SECTIONs and POINTs with a position only
(R55); any other entry is refused. -/
def State.testEntry (s : State) (path : Bool) (x : ListRow) : Option Refused :=
  match s.kind x.target, sideOfCode x.position with
  | some .sect, _ => s.testSection path x
  | some .point, some side => s.testPoint x side
  | _, _ => some (.conditionFailed, x.target)

/-- The tests of the start element (R52). -/
def State.testStart (s : State) (r : Nat) : Option Refused :=
  let e := (s.rrow r).start
  if s.isEntry r then
    firstRefused
      [(!s.holds e .routeLocked, (.conflict, e)), (s.holds e .inControl, (.conditionFailed, e))]
  else
    firstRefused
      [(!s.holds e .routeLocked, (.conflict, e)),
       (!s.holds e .flankClaimed, (.flankHeld, e)),
       (s.holds e .inControl, (.conditionFailed, e)),
       (!s.holds e .lampFault, (.conditionFailed, e)),
       (!s.holds e .blocked, (.conditionFailed, e))]

/-- The tests of the destination element (R52). -/
def State.testDest (s : State) (r : Nat) : Option Refused :=
  let e := (s.rrow r).dest
  if s.routeKind r = some .exit then
    firstRefused
      [(!s.holds e .routeLocked, (.conflict, e)),
       (!s.holds e .inboundHeld, (.conflict, e)),
       (s.holds e .inControl, (.conditionFailed, e))]
  else
    firstRefused
      [(s.holds e .inControl, (.conditionFailed, e)), (!s.holds e .lampFault, (.conditionFailed, e))]

/-- The tests of a reservation, steps 1 to 4 of R53, in their order. -/
def State.reservationTests (s : State) (r : Nat) : Option Refused :=
  let w := s.rrow r
  (s.testStart r).orElse (fun _ =>
    ((pathOf s.store w).findSome? (s.testEntry true)).orElse (fun _ =>
      ((overlapOf s.store w).findSome? (s.testEntry false)).orElse (fun _ => s.testDest r)))

/-- The outcome of the tests and of the flank walks (R53, R103). -/
def State.reservationOutcome (s : State) (r : Nat) : Except Refused (List FlankRec) :=
  match s.reservationTests r with
  | some x => .error x
  | none =>
    match s.resolveFlank r [] (flankReqsOf s.store (s.rrow r)) with
    | .ok res => .ok res
    | .error e => .error (.flankUnavailable, e)

/-- The locked set of a route (R42). -/
def State.lockedSet (s : State) (r : Nat) : List Nat :=
  let w := s.rrow r
  w.start :: (if s.routeKind r = some .exit then [w.dest] else [])
    ++ (pathOf s.store w).map (·.target) ++ (overlapOf s.store w).map (·.target)

/-- The points a reservation commands, each once: those of the path and overlap lists in stored order, then those of
the flank resolution list (R79, R83). Read Route lists the awaited points in this order, which no rule states (DESIGN
CHOICE, log entry 38). -/
def State.routePoints (s : State) (r : Nat) (res : List FlankRec) : List Awaited :=
  let w := s.rrow r
  let own := (pathOf s.store w ++ overlapOf s.store w).filterMap (fun x =>
    if s.kind x.target = some .point then (sideOfCode x.position).map (fun p => (⟨x.target, p⟩ : Awaited)) else none)
  let flank := res.filterMap (fun f => f.state.side.map (fun p => (⟨f.elem, p⟩ : Awaited)))
  (own ++ flank).foldl (fun acc a => if acc.any (fun b => b.elem == a.elem) then acc else acc ++ [a]) []

/-- Queue the request of a route: the route becomes QUEUED with the origin and joins the tail (R75, R77). -/
def Ev.queueRoute (ev : Ev) (r : Nat) (o : Origin) : Ev :=
  let ev := ev.on (fun s =>
    { s.modRoute r (fun w => { w with state := .queued, origin := some o }) with
      requests := s.requests ++ [⟨r, o⟩] })
  ev.routeEvent r .queued

/-- Answer a route of origin NEIGHBOUR with Decline under its reference; nothing for origin CONTROL (R82, R89, R92). -/
def Ev.declineOrigin (ev : Ev) (r : Nat) (o : Option Origin) (reason : Reason) : Ev :=
  match o with
  | some (.neighbour l ref) =>
    let e := (ev.s.rrow r).start
    ev.sendDecline l (some e) (ev.s.pointByte e) ref reason
  | _ => ev

/-- Remove a queued request from its place: the route becomes FREE with a Route Report CANCELLED (R92, R94, R95). -/
def Ev.cancelQueued (ev : Ev) (r : Nat) (reason : Reason) (decline : Bool) : Ev :=
  let w := ev.s.route r
  let ev := ev.on (fun s => { s.setRoute r {} with requests := s.requests.filter (fun q => q.route != r) })
  let ev := ev.routeReport r w (.cancelled reason)
  if decline then ev.declineOrigin r w.origin reason else ev

/-- Free a setting context and stop its timer. -/
def State.freeCtx (s : State) (c : Nat) : State := (s.setCtx c none).setCtxTimer c none

/-- A context fails (R89) and releases its route (R90). The Offer is withdrawn where the context holds one and the
transaction is OFFER_SENT or HELD_OUT. `decline` says whether a route of origin NEIGHBOUR is answered: the Decline and
its Border Report follow the release and its REFUSED ("Then", R89). -/
def Ev.failCtx (ev : Ev) (c : Nat) (reason : Reason) (named : Nat) (decline : Bool) : Ev :=
  match ev.s.ctx c with
  | none => ev
  | some x =>
    let r := x.route
    let w := ev.s.route r
    let dest := (ev.s.rrow r).dest
    let ev :=
      match x.offerRef, ev.s.elemLink dest with
      | some ref, some l =>
        match (ev.s.transOf dest).state with
        | .offerSent | .heldOut => ev.sendWithdraw l dest ref reason
        | _ => ev
      | _, _ => ev
    let ev := ev.on (fun s => (((s.unlockAll r).dropClaims r (fun _ => true)).setRoute r {}).freeCtx c)
    let refused (ev : Ev) := ev.routeReport r w (.refused reason (ev.s.desig named))
    if decline then ev.inOrder (.failure r) 0 [refused, fun ev => ev.declineOrigin r w.origin reason] else refused ev

/-- A context completes: its route becomes LOCKED (R87), and an ENTRY route of origin NEIGHBOUR sends Accept (R88). -/
def Ev.completeCtx (ev : Ev) (c : Nat) : Ev :=
  match ev.s.ctx c with
  | none => ev
  | some x =>
    let r := x.route
    let ev := ev.on (fun s =>
      (s.freeCtx c).modRoute r (fun w => { w with state := .locked, context := none, clearWanted := true }))
    let ev := (ev.routeEvent r .locked).reach r
    match ev.s.isEntry r, (ev.s.route r).origin with
    | true, some (.neighbour l ref) => ev.sendAccept l (ev.s.rrow r).start ref
    | _, _ => ev

/-- A context whose awaited set has become empty completes (R87). -/
def Ev.completeIfDone (ev : Ev) (c : Nat) : Ev :=
  match ev.s.ctx c with
  | some x => if x.awaited.isEmpty && !x.reply then ev.completeCtx c else ev
  | none => ev

/-- The changed elements are handed to a context (R6, R85): an awaited point with FAULT fails it; the awaited points at
their required positions leave the set. Where several awaited points show FAULT at one event, the first of the awaited set
is named: the model's choice (DESIGN CHOICE, log entry 34). -/
def Ev.handToCtx (ev : Ev) (changed : List Nat) (c : Nat) : Ev :=
  match ev.s.ctx c with
  | none => ev
  | some x =>
    let hit := x.awaited.filter (fun a => changed.contains a.elem)
    match hit.find? (fun a => ev.s.holds a.elem .fault) with
    | some a => ev.failCtx c .pointFailed a.elem true
    | none =>
      let rest := x.awaited.filter (fun a => !(changed.contains a.elem && ev.s.atSide a.elem a.side))
      if rest.length = x.awaited.length then ev
      else (ev.on (fun s => s.setCtx c (some { x with awaited := rest }))).completeIfDone c

/-- The setting contexts, by number (R79). -/
def contextNumbers : List Nat := [0, 1, 2, 3]

/-- The ACTIVE context that holds a route. -/
def State.ctxOf (s : State) (r : Nat) : Option Nat :=
  contextNumbers.find? (fun c => match s.ctx c with | some x => x.route == r | none => false)

/-- The ACTIVE context that awaits a reply to the Offer over a BORDER element. -/
def State.ctxAwaiting (s : State) (e : Nat) : Option Nat :=
  contextNumbers.find? (fun c =>
    match s.ctx c with
    | some x => x.reply && s.routeKind x.route == some .exit && (s.rrow x.route).dest == e
    | none => false)

/-- The FREE context with the lowest number (R80). -/
def State.freeCtxNumber (s : State) : Option Nat := contextNumbers.find? (fun c => (s.ctx c).isNone)

/-- The head of the queue is refused at its reservation (R82). -/
def Ev.refuseReservation (ev : Ev) (q : Request) (x : Refused) : Ev :=
  let w := ev.s.route q.route
  let ev := (ev.on (fun s => s.setRoute q.route {})).routeReport q.route w (.refused x.1 (ev.s.desig x.2))
  ev.declineOrigin q.route (some q.origin) x.1

/-- The reservation succeeds: locks, claims, SETTING, points commanded, the awaited set and, for an EXIT route, the
Offer (R81, R83, R84, R104). -/
def Ev.reserve (ev : Ev) (c : Nat) (q : Request) (res : List FlankRec) : Ev :=
  let r := q.route
  let w := ev.s.rrow r
  let pts := ev.s.routePoints r res
  let awaited := pts.filter (fun a => !ev.s.atSide a.elem a.side)
  let ev := ev.on (fun s =>
    let s := (s.lockedSet r).foldl (fun s e => s.lockTo r e) s
    let s := res.foldl State.makeClaim s
    let s := s.modRoute r (fun x =>
      { x with state := .setting, context := some c, groups := List.replicate w.groups .reserved, flank := res,
               clearWanted := false, wasCleared := false })
    let s := pts.foldl (fun s a => s.commandPoint a.elem a.side) s
    s.setCtx c (some { route := r, awaited := awaited, reply := false, offerRef := none }))
  let ev :=
    match ev.s.routeKind r, ev.s.elemLink w.dest with
    | some .exit, some l =>
      let ref := ev.s.offerRef l + 1
      (ev.sendOffer l w.dest w.variant).on (fun s =>
        (s.setCtx c (some { route := r, awaited := awaited, reply := true, offerRef := some ref })).startCtxTimer c)
    | _, _ => ev
  ev.completeIfDone c

/-- Entry into SAFE_STOP at the SE: every queued request is cancelled in queue order, then every ACTIVE context fails in
ascending number (R95). -/
def Ev.settingSafeStop (ev : Ev) : Ev :=
  let cancel (q : Request) (ev : Ev) := ev.cancelQueued q.route .safeStop true
  let fail (c : Nat) (ev : Ev) :=
    match ev.s.ctx c with
    | some x => ev.failCtx c .safeStop (ev.s.rrow x.route).start true
    | none => ev
  ev.inOrder .setting 0 (ev.s.requests.map cancel ++ contextNumbers.map fail)

/-- Entry into SAFE_STOP at the RM: CLEARED routes revert naming the start element, LOCKED routes lose their
clear-wanted mark, in ascending route index (R120). -/
def Ev.monitorSafeStop (ev : Ev) : Ev :=
  ev.s.activeRoutes.foldl (fun ev r =>
    match (ev.s.route r).state with
    | .cleared => ev.revert r (ev.s.rrow r).start
    | .locked => ev.on (fun s => s.modRoute r (fun w => { w with clearWanted := false }))
    | _ => ev) ev

/-- The ENTRY route that a neighbour's reference names over a BORDER element, in one of the given states. R149 says that
there is at most one. Where two match after all, an old one that runs on after its Handback and a new one under the same
reference, the route with the lowest index is taken: the model's choice (DESIGN CHOICE, log entry 43). -/
def State.entryUnder (s : State) (l : Link) (e : Nat) (ref : Byte) (p : RState → Bool) : Option Nat :=
  s.activeRoutes.find? (fun r =>
    s.routeKind r == some .entry && (s.rrow r).start == e && p (s.route r).state
      && (s.route r).origin == some (.neighbour l ref))

/-- The entry requests of a lost link are ended, in ascending route index (R94). -/
def Ev.entryLinkLoss (ev : Ev) (l : Link) : Ev :=
  let rs := ev.s.activeRoutes.filter (fun r => ev.s.routeKind r == some .entry && ev.s.onLink l (ev.s.rrow r).start)
  rs.foldl (fun ev r =>
    match (ev.s.route r).state with
    | .queued => ev.cancelQueued r .borderLinkLost false
    | .setting =>
      match ev.s.ctxOf r with
      | some c => ev.failCtx c .borderLinkLost (ev.s.rrow r).start false
      | none => ev
    | _ => ev) ev

end Sys2Proof.Machine
end

