-- ==== Sys2Proof/Machine/Settle.lean ====
section
/-! DEFINITION. The end of an event: the changed elements are handed to the Setting Engine and the Route Monitor (R6,
R113), aspects are computed (R117, R118), Command Telegrams go down (R11), Element Reports are raised (R6), and the
event's reports are offered to the queue (R174). -/

namespace Sys2Proof.Machine

/-- What of an element's record is handed on when it changes (R6): every field but the supervision deadline, the throw
watch and the set time, and whether the SU holds it. -/
structure HandView where
  record : Elem
  supervised : Bool
  blocked : Bool
  trans : TransState
  deriving DecidableEq, Repr

/-- The record of an element as the EI hands it on. -/
def State.handView (s : State) (e : Nat) : HandView :=
  { record := { s.elem e with deadline := none, watch := none, restoreSet := none, heard := false }
    supervised := s.supervised e, blocked := s.isBlocked e, trans := (s.transOf e).state }

/-- Whether an event changed an element, in the sense of R6. -/
def handedOn (before after : State) (e : Nat) : Bool := before.handView e != after.handView e

/-- The elements an event changed, ascending. -/
def changedElems (before after : State) : List Nat := after.elemIndices.filter (handedOn before after)

/-- Whether a route names an element as start, destination or berth, on its path, overlap or approach list, or in its
flank resolution list (R113). -/
def State.namesElem (s : State) (r e : Nat) : Bool :=
  let w := s.rrow r
  w.start == e || w.dest == e || w.berth == e
    || (pathOf s.store w).any (fun x => x.target == e)
    || (overlapOf s.store w).any (fun x => x.target == e)
    || (approachOf s.store w).any (fun x => x.target == e)
    || (s.route r).flank.any (fun f => f.elem == e)

/-- The changed elements are handed to each setting context (R6, R85). The ascending context number is the model's choice
(DESIGN CHOICE, log entry 34). -/
def Ev.handToSetting (ev : Ev) : Ev :=
  let changed := changedElems ev.before ev.s
  contextNumbers.foldl (fun ev c => ev.handToCtx changed c) ev

/-- The RM's routes that the event reaches, ascending (R113). -/
def Ev.reachedRoutes (ev : Ev) : List Nat :=
  let changed := changedElems ev.before ev.s
  ev.s.activeRoutes.filter (fun r =>
    (ev.s.route r).state.inMonitor
      && (ev.reached.contains r || changed.any (ev.s.namesElem r) || changed.any (ev.before.namesElem r)))

/-- Whether a CLEARED route's aspect is to be computed at the event: the route became CLEARED, or what its row of R117
reads has changed (R118). -/
def Ev.aspectDue (ev : Ev) (r : Nat) : Bool :=
  let dest := (ev.s.rrow r).dest
  (ev.before.route r).state != .cleared
    || (match ev.s.routeKind r with
        | some .shunt => false
        | some .exit => ev.before.holds dest .onwardClear != ev.s.holds dest .onwardClear
        | _ => ev.before.clearedFrom dest != ev.s.clearedFrom dest)

/-- The aspect of a CLEARED report of a route, filled in. -/
def Offer.withAspect (r : Nat) (a : Aspect) (o : Offer) : Offer :=
  match o.rep with
  | .route w => if w.route = r ∧ w.event = .cleared .danger then { o with rep := .route { w with event := .cleared a } } else o
  | _ => o

/-- Compute the aspect of a CLEARED route at the end of the event (R113, R116 step 2, R118). -/
def Ev.settleAspect (ev : Ev) (r : Nat) : Ev :=
  if (ev.s.route r).state = .cleared ∧ ev.aspectDue r = true then
    let a := ev.s.aspectOf r
    if (ev.before.route r).state != .cleared then
      { ev.on (fun s => s.writeAspect r a) with offers := ev.offers.map (Offer.withAspect r a) }
    else if a = (ev.s.route r).aspect then ev
    else (ev.on (fun s => s.writeAspect r a)).routeEvent r (.aspectChanged a)
  else ev

/-- The Route Monitor's part of the event: the reached routes are settled, then the aspects computed (R113). R113 orders
the Route Reports by ascending route index and leaves open the order in which the routes act: that they are settled in
ascending index too, and so take and free release timers, join the wait list and send border telegrams in that order, is
the model's choice (DESIGN CHOICE, log entry 40). -/
def Ev.monitor (ev : Ev) : Ev :=
  let ev := ev.reachedRoutes.foldl Ev.evalRoute ev
  ev.s.activeRoutes.foldl Ev.settleAspect ev

/-- Whether an event changed the commanded state of a POINT or SIGNAL (R11). -/
def commandChanged (before after : State) (e : Nat) : Bool :=
  match after.kind e with
  | some .point => (before.elem e).pointCmd != (after.elem e).pointCmd
  | some .signal => (before.elem e).aspect != (after.elem e).aspect
  | _ => false

/-- Put an FEC address into a list of addresses in ascending order, once. -/
def insertFec (a : Nat) : List Nat → List Nat
  | [] => [a]
  | b :: t => if a < b then a :: b :: t else if a = b then b :: t else b :: insertFec a t

/-- The FECs of some elements, in ascending address order. -/
def State.fecsOf (s : State) (es : List Nat) : List Nat := es.foldl (fun acc e => insertFec (s.erow e).addr acc) []

/-- Command Telegrams on change: one to each FEC with a changed commanded state, in ascending address order (R11). -/
def Ev.sendChanges (ev : Ev) : Ev :=
  let es := ev.s.elemIndices.filter (commandChanged ev.before ev.s)
  ev.on (fun s => (s.fecsOf es).foldl State.sendCommand s)

/-- The Element Report of an element as it stands (R6). -/
def State.elementReport (s : State) (e : Nat) (k : Kind) : ElementReport :=
  { elem := e, designation := s.desig e, kind := k, reported := s.reportedByte e, commanded := s.commandByte e,
    lastThrow := if k = .point then some (s.elem e).lastThrow else none, conditions := s.condSet e }

/-- Raise the Element Report of a changed element (R6). -/
def Ev.handToCpc (ev : Ev) (e : Nat) : Ev :=
  match ev.s.kind e with
  | some k => ev.raise (.elem e) (.element (ev.s.elementReport e k))
  | none => ev

/-- Offer the event's reports to the report queue (R174), judged by the mask in force at the moment the event is taken
(R173): a Set Report Mask judges its own event's reports by the mask it replaces. That all of them are offered at the end
of the event, after an Acknowledge Indications has cleared its latches, is the model's choice (DESIGN CHOICE, log entry
32). -/
def Ev.commit (ev : Ev) : State :=
  { (mergeOffers ev.s.events ev.offers.length 0 ev.offers).foldl State.offer { ev.s with mask := ev.before.mask } with
    mask := ev.s.mask }

/-- End an event: hand the changes on and offer the reports. R6 hands the changes to the Route Monitor and to the Setting
Engine without an order between the two: that the Setting Engine acts first, so that its telegrams stand before the Route
Monitor's among those of the event on one B-link, is the model's choice (DESIGN CHOICE, log entry 42). -/
def Ev.settle (ev : Ev) : State :=
  let ev := (ev.handToSetting.monitor).sendChanges
  ((changedElems ev.before ev.s).foldl Ev.handToCpc ev).commit

end Sys2Proof.Machine
end

