-- ==== Sys2Proof/Machine/Links.lean ====
section
/-! DEFINITION. The link watch (R33 to R37) and what a change of link state reaches (R31, R94, R152, R153, R161). -/

namespace Sys2Proof.Machine

/-- The B-link of a port. -/
def portLink : Port → Option Link
  | .b1 => some .b1
  | .b2 => some .b2
  | _ => none

/-- The Fault Report of a change of link state (R37, section 12.7). -/
def linkReport (p : Port) (x : LinkState) : FaultReport :=
  { cls := .linkFault, designation := 0, port := some p, route := none, cause := lowByte x.code }

/-- A valid telegram has arrived on a port (R34, R35). The third in DOWN or LOST brings the link UP, which a B-link's BL
answers at once (R153). The telegram is dealt with after that, so the link's report comes before the reports that the
telegram raises (R7, R30, R34, R141, R166). -/
def Ev.validTelegram (ev : Ev) (p : Port) : Ev :=
  let l := ev.s.link p
  let timer := some (ev.s.deadlineAfter (ev.s.linkTimeout p))
  if l.state = .up then ev.on (fun s => s.setLink p { l with timer := timer })
  else if l.count + 1 < 3 then ev.on (fun s => s.setLink p { l with count := l.count + 1, timer := timer })
  else
    let ev := ev.on (fun s => s.setLink p { state := .up, count := 0, timer := timer })
    let ev := ev.raise .linkUp (.fault (linkReport p .up))
    match portLink p with
    | some b => ev.on (fun s => s.borderLinkUp b)
    | none => ev

/-- An invalid telegram has arrived on a port: in DOWN or LOST the count returns to 0 and the timer stops; in UP nothing
changes (R34, R35). -/
def Ev.invalidTelegram (ev : Ev) (p : Port) : Ev :=
  let l := ev.s.link p
  if l.state = .up then ev else ev.on (fun s => s.setLink p { l with count := 0, timer := none })

/-- The target of an auxiliary command as designations (R160). -/
def State.auxTarget (s : State) : AuxCmd → AuxTarget
  | .forcedRouteRelease r => .route (s.routeKeyOf r)
  | .sectionReset e | .auxPointMove e _ | .forcedBorderClear e => .elem (s.desig e)

/-- An Aux Report (R160). -/
def Ev.auxReport (ev : Ev) (p : AuxPending) (x : AuxEvent) : Ev :=
  ev.raise .aux (.aux { event := x, cmd := p.cmd, target := ev.s.auxTarget p.cmd, tag := p.tag })

/-- The pending auxiliary command is removed and the window timer stopped (R161). -/
def State.clearAux (s : State) : State := { s with auxPending := none, auxTimer := none }

/-- End a pending auxiliary command with an Aux Report, where one is pending (R161). -/
def Ev.endAux (ev : Ev) (x : AuxEvent) : Ev :=
  match ev.s.auxPending with
  | some p => (ev.auxReport p x).on State.clearAux
  | none => ev

/-- The SU takes a lost link's BORDER element out of control (R5, R31). -/
def State.loseBorder (s : State) (e : Nat) : State :=
  s.modElem e (fun r =>
    { r with heard := false, nbr := .unknown, nbrEntryProven := false, nbrOnwardClear := false })

/-- The BL acts on one transaction record of a lost link: OFFER_SENT becomes IDLE and its context fails; any other
state is left (R152). -/
def Ev.transLinkLoss (ev : Ev) (l : Link) (e : Nat) : Ev :=
  match (ev.s.transOf e).state, (ev.s.transOf e).reference with
  | .offerSent, ref =>
    let ev := ev.changeTrans l e {} (ref.getD 0) .linkLost none
    match ev.s.ctxAwaiting e with
    | some c => ev.failCtx c .borderLinkLost e false
    | none => ev
  | _, _ => ev

/-- What a B-link's loss reaches: the EI, the SE and the BL (R31, R94, R152). The Route Reports stand in the order in
which R94 lists their causes: the entry routes in ascending route index, then the EXIT contexts (R74). The BL acts on its
records in ascending border point number, and the reports of one record stand before those of the next. -/
def Ev.borderLoss (ev : Ev) (l : Link) : Ev :=
  let es := ev.s.linkElems l
  let ev := ev.on (fun s => es.foldl State.loseBorder s)
  (ev.entryLinkLoss l).inOrder .linkLoss 0 (es.map (fun e ev => ev.transLinkLoss l e))

/-- A link in UP has fallen silent (R35, R37): LOST, latched and reported, and handed on. -/
def Ev.linkLost (ev : Ev) (p : Port) : Ev :=
  let ev := ev.on (fun s => { s.setLink p { state := .lost } with lostPorts := s.lostPorts ||| (1#4 <<< portBit p) })
  let ev := ev.fault .link (linkReport p .lost)
  match p with
  | .c => ev.endAux (.discarded .linkLost)
  | .f => ev
  | .b1 => ev.borderLoss .b1
  | .b2 => ev.borderLoss .b2

end Sys2Proof.Machine
end

