-- ==== Sys2Proof/Machine/Judge.lean ====
section
/-! DEFINITION. The judgement of C-port requests (R166, R167) and their Replies (R192). -/

namespace Sys2Proof.Machine

/-- The answer of the mode to a request it does not take, none where the mode takes it (R167). -/
def modeAnswer (m : Mode) (q : Req) : Option ReplyCode :=
  match m, q.cls with
  | _, .status => none
  | .maintenance, .maintenance => if q = .leaveOperation then some .wrongMode else none
  | .maintenance, .operation => some .wrongMode
  | .startup, .operation => some .notReady
  | .startup, .maintenance => some .wrongMode
  | .operational, .operation => none
  | .operational, .maintenance => if q = .leaveOperation then none else some .wrongMode
  | .safeStop, .maintenance => if q = .restart then none else some .wrongMode
  | .safeStop, .operation => some .wrongMode

/-- Send the Reply to a request: its class, kind and tag, a reply code and what follows it (R166, R192). It is sent at
the event that decides it, whatever the C-port link state (R168). -/
def Ev.reply (ev : Ev) (q : Req) (tag : Half) (code : ReplyCode) (data : ReplyData) : Ev :=
  ev.on (fun s => s.send .c (.reply q.cls.code q.code tag code data))

/-- A Reply with no detail. -/
def Ev.answer (ev : Ev) (q : Req) (tag : Half) (code : ReplyCode) : Ev := ev.reply q tag code .none

/-- Steps 3 to 6 of R166, after the link watch has counted the telegram: length, mode, range, then the block that owns
the request. -/
def Ev.judge (ev : Ev) (q : Req) (tag : Half) (p : List Byte) (body : Ev → Ev) : Ev :=
  if q.lengthFits p then
    match modeAnswer ev.s.mode q with
    | some code => ev.answer q tag code
    | none => if q.inRange p then body ev else ev.answer q tag .outOfRange
  else ev.answer q tag .badLength

/-- Take a C-port request as one event: the link watch, the judgement, and the owner's part. The reports of the event,
that of a link that comes UP among them, are offered when the owner has acted (DESIGN CHOICE, log entry 32). -/
def takeRequest (q : Req) (tag : Half) (p : List Byte) (body : Ev → Ev) (s : State) : State :=
  (((Ev.start s).validTelegram .c).judge q tag p body).settle

/-- Answer a failed lookup, or go on with what was found. -/
def Ev.withFound {α : Type} (ev : Ev) (q : Req) (tag : Half) (x : Except ReplyCode α) (f : α → Ev) : Ev :=
  match x with
  | .error code => ev.answer q tag code
  | .ok a => f a

end Sys2Proof.Machine
end

