-- ==== Sys2Proof/Machine/RouteRequests.lean ====
section
/-! DEFINITION. The route requests: Set Route (R75), Cancel Route (R91 to R93, R124) and Re-signal (R78). -/

namespace Sys2Proof.Machine

/-- The SE's tests of a Set Route, and what follows when they pass (R75). -/
def Ev.setRoute (tag : Half) (ev : Ev) (r : Nat) : Ev :=
  if ev.s.routeKind r = some .entry then ev.answer .setRoute tag .wrongKind
  else if (ev.s.route r).state ≠ .free then ev.answer .setRoute tag .routeActive
  else if 8 ≤ ev.s.requests.length then ev.answer .setRoute tag .queueFull
  else (ev.reply .setRoute tag .queued (.routeIndex r)).queueRoute r (.control tag)

/-- SET_ROUTE (R75). -/
def takeSetRoute (tag : Half) (p : List Byte) (s : State) : State :=
  takeRequest .setRoute tag p
    (fun ev => ev.withFound .setRoute tag (ev.s.payloadRoute p) (ev.setRoute tag)) s

/-- The meaning of SET_ROUTE. -/
def execSetRoute (tag : Half) (p : List Byte) (s : State) : Host.Outcome State Fault Refusal :=
  .next (takeSetRoute tag p s)

/-- The Route Monitor's part of a Cancel Route on a LOCKED or CLEARED route (R124). -/
def Ev.cancelLocked (ev : Ev) (r : Nat) : Ev :=
  let w := ev.s.route r
  let ev := (ev.toDanger r).on (fun s => s.modRoute r (fun w => { w with clearWanted := false }))
  if ev.s.isEntry r then ev.fullRelease r
  else if w.wasCleared && !ev.s.approachTest r then
    (ev.on (fun s => s.modRoute r (fun w => { w with state := .cancelling }))).timedWait r .approach
      (.cancelling .approach)
  else if ev.s.holds (ev.s.rrow r).start .dangerProven then ev.fullRelease r
  else (ev.on (fun s => s.modRoute r (fun w => { w with state := .cancelling }))).routeEvent r (.cancelling .none)

/-- Abort the context that holds a SETTING route (R93). -/
def Ev.abortSetting (ev : Ev) (r : Nat) : Ev :=
  match ev.s.ctxOf r with
  | some c => ev.failCtx c .cancelled (ev.s.rrow r).start true
  | none => ev

/-- The answer to a Cancel Route by the route's state (R91). -/
def Ev.cancelRoute (tag : Half) (ev : Ev) (r : Nat) : Ev :=
  match (ev.s.route r).state with
  | .free => ev.answer .cancelRoute tag .notLocked
  | .queued => (ev.answer .cancelRoute tag .accepted).cancelQueued r .cancelled true
  | .setting => (ev.answer .cancelRoute tag .accepted).abortSetting r
  | .locked | .cleared => ((ev.answer .cancelRoute tag .accepted).cancelLocked r).reach r
  | .cancelling | .inUse | .overlapHeld => ev.answer .cancelRoute tag .notCancellable

/-- CANCEL_ROUTE (R91). -/
def takeCancelRoute (tag : Half) (p : List Byte) (s : State) : State :=
  takeRequest .cancelRoute tag p
    (fun ev => ev.withFound .cancelRoute tag (ev.s.payloadRoute p) (ev.cancelRoute tag)) s

/-- The meaning of CANCEL_ROUTE. -/
def execCancelRoute (tag : Half) (p : List Byte) (s : State) : Host.Outcome State Fault Refusal :=
  .next (takeCancelRoute tag p s)

/-- The Route Monitor's answer to a Re-signal (R78). -/
def Ev.reSignal (tag : Half) (ev : Ev) (r : Nat) : Ev :=
  if (ev.s.route r).state = .locked then
    ((ev.answer .reSignal tag .accepted).on
      (fun s => s.modRoute r (fun w => { w with clearWanted := true }))).reach r
  else ev.answer .reSignal tag .notLocked

/-- RE_SIGNAL (R78). -/
def takeReSignal (tag : Half) (p : List Byte) (s : State) : State :=
  takeRequest .reSignal tag p
    (fun ev => ev.withFound .reSignal tag (ev.s.payloadRoute p) (ev.reSignal tag)) s

/-- The meaning of RE_SIGNAL. -/
def execReSignal (tag : Half) (p : List Byte) (s : State) : Host.Outcome State Fault Refusal :=
  .next (takeReSignal tag p s)

end Sys2Proof.Machine
end

