-- ==== Sys2Proof/Machine/AuxCommands.lean ====
section
/-! DEFINITION. Auxiliary commands: Aux Prepare (R158), Aux Confirm (R160), applicability (R159), the execution of the
four kinds (R162 to R164, R154) and the window's expiry (R161). -/

namespace Sys2Proof.Machine

/-- The test of a target for its kind (R159): none where it passes. -/
def State.auxRefusal (s : State) : AuxCmd → Option ReplyCode
  | .forcedRouteRelease r => if (s.route r).state.inMonitor then none else some .auxNotApplicable
  | .sectionReset e =>
    if s.kind e ≠ some .sect then some .wrongKind
    else if (s.elem e).lockOwner.isNone then none else some .auxNotApplicable
  | .auxPointMove e _ =>
    if s.kind e ≠ some .point then some .wrongKind
    else if (s.elem e).lockOwner.isNone && (s.elem e).claims == 0 && !s.isBlocked e
        && !s.holds (s.erow e).sect .vacant then none
    else some .auxNotApplicable
  | .forcedBorderClear e =>
    if s.kind e ≠ some .border then some .wrongKind
    else
      match s.elemLink e with
      | some l =>
        if (s.transOf e).state ≠ .idle ∧ (s.link l.port).state = .lost then none else some .auxNotApplicable
      | none => some .auxNotApplicable

/-- The AU's part of an Aux Prepare (R158). -/
def Ev.auxPrepare (tag : Half) (ev : Ev) (cmd : AuxCmd) : Ev :=
  match ev.s.auxRefusal cmd with
  | some code => ev.answer .auxPrepare tag code
  | none =>
    let ev :=
      match ev.s.auxPending with
      | none => ev.answer .auxPrepare tag .accepted
      | some old => (ev.answer .auxPrepare tag .auxReplaced).auxReport old .superseded
    ev.on (fun s => { s with auxPending := some { cmd := cmd, tag := tag } }.startAuxTimer)

/-- AUX_PREPARE (R158). -/
def takeAuxPrepare (tag : Half) (p : List Byte) (s : State) : State :=
  takeRequest .auxPrepare tag p
    (fun ev => ev.withFound .auxPrepare tag (ev.s.payloadAux p) (ev.auxPrepare tag)) s

/-- The meaning of AUX_PREPARE. -/
def execAuxPrepare (tag : Half) (p : List Byte) (s : State) : Host.Outcome State Fault Refusal :=
  .next (takeAuxPrepare tag p s)

/-- A SECTION_RESET: one Reset Order to the section's FEC, and the restore-pending mark with its set time (R13, R163). -/
def Ev.sectionReset (ev : Ev) (e : Nat) : Ev :=
  ev.on (fun s =>
    (s.send .f (.resetOrder (s.erow e).addr (s.erow e).slot)).modElem e
      (fun r => { r with restore := true, restoreSet := some s.events }))

/-- A route tied to a cleared element ends (R154): a SETTING one fails its context with CANCELLED, any other is released
in full; a queued request also leaves the queue, and a CLEARED route first goes to danger (log entry 17). -/
def Ev.endTied (ev : Ev) (r : Nat) : Ev :=
  match (ev.s.route r).state with
  | .setting => ev.abortSetting r
  | .queued =>
    (ev.on (fun s => { s with requests := s.requests.filter (fun q => q.route != r) })).fullRelease r
  | .cleared => (ev.toDanger r).fullRelease r
  | _ => ev.fullRelease r

/-- The routes tied to a BORDER element, in ascending route index: the EXIT routes that end at it and are not FREE, and
the ENTRY route that starts at it under the reference of its transaction, one of the lowest index where two match (R154;
DESIGN CHOICE, log entry 43). -/
def State.tiedRoutes (s : State) (l : Link) (e : Nat) : List Nat :=
  let entry := (s.transOf e).reference.bind (fun x => s.entryUnder l e x (fun _ => true))
  s.activeRoutes.filter (fun r => (s.routeKind r == some .exit && (s.rrow r).dest == e) || entry == some r)

/-- FORCED_BORDER_CLEAR at the BL of the element's link (R154): the transaction becomes IDLE with its Border Report, and
then the tied routes end in ascending route index, the order of their Route Reports (R113). -/
def Ev.forcedBorderClear (ev : Ev) (l : Link) (e : Nat) : Ev :=
  let tied := ev.s.tiedRoutes l e
  ev.inOrder .forcedClear 0
    [fun ev => ev.changeTrans l e {} ((ev.s.transOf e).reference.getD 0) .forcedClear none,
     fun ev => tied.foldl Ev.endTied ev]

/-- Hand an executed command to the block that owns its target (R160 step 3). -/
def Ev.executeAux (ev : Ev) : AuxCmd → Ev
  | .forcedRouteRelease r => ev.forcedRelease r
  | .sectionReset e => ev.sectionReset e
  | .auxPointMove e side => ev.on (fun s => s.commandPoint e side)
  | .forcedBorderClear e =>
    match ev.s.elemLink e with
    | some l => ev.forcedBorderClear l e
    | none => ev

/-- A matching Confirm whose target passes executes (R160 step 3). -/
def Ev.confirmed (tag : Half) (ev : Ev) (p : AuxPending) : Ev :=
  let ev := ((ev.answer .auxConfirm tag .accepted).on State.clearAux).executeAux p.cmd
  let ev := ev.on (fun s => { s with auxCounter := s.auxCounter + 1 }.latch .aux)
  ev.auxReport p (.executed ev.s.auxCounter)

/-- The AU's part of an Aux Confirm (R160). -/
def Ev.auxConfirm (tag : Half) (ev : Ev) (cmd : AuxCmd) : Ev :=
  match ev.s.auxPending with
  | none => ev.answer .auxConfirm tag .auxSequence
  | some p =>
    if p.cmd = cmd then
      match ev.s.auxRefusal cmd with
      | some code => (ev.answer .auxConfirm tag code).endAux (.discarded .notApplicable)
      | none => ev.confirmed tag p
    else (ev.answer .auxConfirm tag .auxSequence).endAux (.discarded .sequence)

/-- AUX_CONFIRM (R160). -/
def takeAuxConfirm (tag : Half) (p : List Byte) (s : State) : State :=
  takeRequest .auxConfirm tag p
    (fun ev => ev.withFound .auxConfirm tag (ev.s.payloadAux p) (ev.auxConfirm tag)) s

/-- The meaning of AUX_CONFIRM. -/
def execAuxConfirm (tag : Half) (p : List Byte) (s : State) : Host.Outcome State Fault Refusal :=
  .next (takeAuxConfirm tag p s)

/-- Whether the aux window timer has expired and the expiry is still to be delivered (R71). -/
def State.auxExpired (s : State) : Bool :=
  match s.auxTimer with
  | some t => t.expired
  | none => false

/-- AUX_WINDOW_EXPIRY (R71, R161): the pending command is cleared with an Aux Report EXPIRED. -/
def takeAuxWindowExpiry (s : State) : State :=
  if s.auxExpired then (((Ev.start s).endAux .expired).on State.clearAux).settle else s

/-- The meaning of AUX_WINDOW_EXPIRY. -/
def execAuxWindowExpiry (s : State) : Host.Outcome State Fault Refusal := .next (takeAuxWindowExpiry s)

end Sys2Proof.Machine
end

