-- ==== Sys2Proof/Machine/Border.lean ====
section
/-! DEFINITION. The border telegrams: Border Status (R139), Offer (R143, R144, R77), Accept (R146), Decline (R147),
Withdraw (R149, R94), Handback (R150), and the scheduled sending (R137). -/

namespace Sys2Proof.Machine

/-- One entry of a received Border Status, written to the neighbour side of its element, with the heard mark (R30,
R139). -/
def State.applyEntry (l : Link) (s : State) (x : EntryIn) : State :=
  match s.borderElem l x.point with
  | some e =>
    s.modElem e (fun r =>
      { r with nbr := x.home, nbrEntryProven := x.entryProven, nbrOnwardClear := x.onwardClear, heard := true })
  | none => s

/-- A valid Border Status is applied while the link is UP (R139). -/
def Ev.borderStatus (ev : Ev) (l : Link) (p : List Byte) : Ev :=
  if (ev.s.link l.port).state = .up then ev.on (fun s => (statusEntries p).foldl (State.applyEntry l) s) else ev

/-- Take a B-link telegram as one event: the link watch, then the BL's handling; one whose length does not fit its kind
is invalid (R33, R141, R191). -/
def takeBorder (l : Link) (fits : Bool) (body : Ev → Ev) (s : State) : State :=
  if fits then (body ((Ev.start s).validTelegram l.port)).settle else ((Ev.start s).invalidTelegram l.port).settle

/-- BORDER_STATUS (R139). -/
def takeBorderStatus (l : Link) (p : List Byte) (s : State) : State :=
  takeBorder l (borderStatusFits p) (fun ev => ev.borderStatus l p) s

/-- The meaning of BORDER_STATUS. -/
def execBorderStatus (l : Link) (p : List Byte) (s : State) : Host.Outcome State Fault Refusal :=
  .next (takeBorderStatus l p s)

/-- Whether a route stands QUEUED or SETTING. -/
def RState.waiting : RState → Bool
  | .queued | .setting => true
  | _ => false

/-- The ENTRY routes from a BORDER element that stand QUEUED or SETTING. -/
def State.entryRequests (s : State) (e : Nat) : List Nat :=
  s.activeRoutes.filter (fun r => s.routeKind r == some .entry && (s.rrow r).start == e && (s.route r).state.waiting)

/-- The SE's tests of an entry request (R77). -/
def Ev.entryRequest (ev : Ev) (l : Link) (e r : Nat) (tx : BorderTx) : Ev :=
  let origin : Origin := .neighbour l tx.reference
  let waiting := ev.s.entryRequests e
  if waiting.any (fun q => (ev.s.route q).origin == some origin) then ev
  else if !waiting.isEmpty then ev.sendDecline l (some e) tx.point tx.reference .borderBusy
  else if (ev.s.route r).state ≠ .free then ev.sendDecline l (some e) tx.point tx.reference .busy
  else if 8 ≤ ev.s.requests.length then ev.sendDecline l (some e) tx.point tx.reference .busy
  else ev.queueRoute r origin

/-- Step 7 of R143: the lookup of R47, then the entry request. -/
def Ev.offerIdle (ev : Ev) (l : Link) (e : Nat) (tx : BorderTx) : Ev :=
  match ev.s.offerRoute e tx with
  | some r => ev.entryRequest l e r tx
  | none => ev.sendDecline l (some e) tx.point tx.reference .unknownRoute

/-- The crossing rule (R144): the SENIOR side declines; the JUNIOR side fails its own context, and then takes the
Offer. -/
def Ev.crossing (ev : Ev) (l : Link) (e : Nat) (tx : BorderTx) : Ev :=
  if siteSeniority ev.s.store l = 1 then ev.sendDecline l (some e) tx.point tx.reference .crossing
  else
    let fail (ev : Ev) :=
      match ev.s.ctxAwaiting e with
      | some c => ev.failCtx c .borderCrossing e true
      | none => ev
    ev.inOrder .crossing 0 [fail, fun ev => ev.offerIdle l e tx]

/-- The BL's handling of an Offer (R143). -/
def Ev.offer (ev : Ev) (l : Link) (tx : BorderTx) : Ev :=
  let found := ev.s.borderElem l tx.point.toNat
  if ev.s.mode ≠ .operational then ev.sendDecline l found tx.point tx.reference .notReady
  else
    match found with
    | none => ev.sendDecline l none tx.point tx.reference .unknownRoute
    | some e =>
      let t := ev.s.transOf e
      match t.state with
      | .offerSent => ev.crossing l e tx
      | .heldOut => ev.sendDecline l (some e) tx.point tx.reference .borderBusy
      | .inHeld =>
        if t.reference = some tx.reference then ev.sendBorder l (plainTx .accept tx.point tx.reference 0)
        else ev.sendDecline l (some e) tx.point tx.reference .borderBusy
      | .idle => ev.offerIdle l e tx

/-- OFFER (R143). -/
def takeOffer (l : Link) (p : List Byte) (s : State) : State :=
  takeBorder l (borderTransactionFits p) (fun ev => ev.offer l (borderTxOf .offer p)) s

/-- The meaning of OFFER. -/
def execOffer (l : Link) (p : List Byte) (s : State) : Host.Outcome State Fault Refusal := .next (takeOffer l p s)

/-- Apply a rule to the BORDER element of the link that a telegram names; a telegram that names none is ignored
(R141). -/
def Ev.onBorder (ev : Ev) (l : Link) (tx : BorderTx) (f : Nat → Ev) : Ev :=
  match ev.s.borderElem l tx.point.toNat with
  | some e => f e
  | none => ev

/-- The context takes an Accept: BORDER_REPLY leaves its awaited set and its timer stops (R86). -/
def Ev.replyArrived (ev : Ev) (c : Nat) : Ev :=
  match ev.s.ctx c with
  | some x => (ev.on (fun s => (s.setCtx c (some { x with reply := false })).setCtxTimer c none)).completeIfDone c
  | none => ev

/-- The BL's handling of an Accept (R146). -/
def Ev.accept (ev : Ev) (l : Link) (tx : BorderTx) (e : Nat) : Ev :=
  let t := ev.s.transOf e
  match t.state, decide (t.reference = some tx.reference) with
  | .offerSent, true =>
    let ev := ev.changeTrans l e { t with state := .heldOut } tx.reference (.received .accept) none
    match ev.s.ctxAwaiting e with
    | some c => ev.replyArrived c
    | none => ev
  | .heldOut, true => ev
  | _, _ => ev.sendTooLate l e tx.point tx.reference

/-- ACCEPT (R146). -/
def takeAccept (l : Link) (p : List Byte) (s : State) : State :=
  let tx := borderTxOf .accept p
  takeBorder l (borderTransactionFits p) (fun ev => ev.onBorder l tx (ev.accept l tx)) s

/-- The meaning of ACCEPT. -/
def execAccept (l : Link) (p : List Byte) (s : State) : Host.Outcome State Fault Refusal := .next (takeAccept l p s)

/-- The BL's handling of a Decline (R147). -/
def Ev.decline (ev : Ev) (l : Link) (tx : BorderTx) (e : Nat) : Ev :=
  let t := ev.s.transOf e
  if t.state = .offerSent ∧ t.reference = some tx.reference then
    let ev := ev.changeTrans l e {} tx.reference (.received .decline) (some tx.reason)
    match ev.s.ctxAwaiting e with
    | some c => ev.failCtx c .borderDeclined e true
    | none => ev
  else ev

/-- DECLINE (R147). -/
def takeDecline (l : Link) (p : List Byte) (s : State) : State :=
  let tx := borderTxOf .decline p
  takeBorder l (borderTransactionFits p) (fun ev => ev.onBorder l tx (ev.decline l tx)) s

/-- The meaning of DECLINE. -/
def execDecline (l : Link) (p : List Byte) (s : State) : Host.Outcome State Fault Refusal := .next (takeDecline l p s)

/-- Clear the lock of a route on its start BORDER element, if it still holds it (R149, R150). -/
def State.freeBorder (s : State) (r e : Nat) : State := if (s.elem e).lockOwner = some r then s.unlock e else s

/-- A Withdraw for the entry route of an ended transaction (R149, IN_HELD). -/
def Ev.withdrawHeld (ev : Ev) (l : Link) (e r : Nat) (ref : Byte) : Ev :=
  let w := ev.s.route r
  if w.groups.any GroupState.entered then
    (ev.on (fun s => s.freeBorder r e)).fault (.border l)
      { cls := .borderFault, designation := ev.s.desig e, port := none, route := none, cause := lowByte ref }
  else if w.state = .cleared then (ev.toDanger r).fullRelease r
  else ev.fullRelease r

/-- The SE's part of a Withdraw: a QUEUED or, where allowed, a SETTING entry request under the reference ends without a
Decline (R94, R149). -/
def Ev.withdrawRequest (ev : Ev) (l : Link) (e : Nat) (ref : Byte) (settingToo : Bool) : Ev :=
  match ev.s.entryUnder l e ref (fun x => x == .queued || (settingToo && x == .setting)) with
  | some r =>
    if (ev.s.route r).state = .queued then ev.cancelQueued r .cancelled false
    else
      match ev.s.ctxOf r with
      | some c => ev.failCtx c .cancelled e false
      | none => ev
  | none => ev

/-- The BL's handling of a Withdraw (R149). In IN_HELD the Border Report is queued, and what ends the entry route
follows it ("Then"). -/
def Ev.withdraw (ev : Ev) (l : Link) (tx : BorderTx) (e : Nat) : Ev :=
  let t := ev.s.transOf e
  match t.state with
  | .inHeld =>
    if t.reference = some tx.reference then
      let entry := ev.s.entryUnder l e tx.reference (fun _ => true)
      let idle (ev : Ev) := ev.changeTrans l e {} tx.reference (.received .withdraw) (some tx.reason)
      let finish (ev : Ev) :=
        match entry with
        | some r => ev.withdrawHeld l e r tx.reference
        | none => ev
      ev.inOrder .withdrawn 0 [idle, finish]
    else ev
  | .idle => ev.withdrawRequest l e tx.reference true
  | .offerSent => ev.withdrawRequest l e tx.reference false
  | .heldOut => ev

/-- WITHDRAW (R149). -/
def takeWithdraw (l : Link) (p : List Byte) (s : State) : State :=
  let tx := borderTxOf .withdraw p
  takeBorder l (borderTransactionFits p) (fun ev => ev.onBorder l tx (ev.withdraw l tx)) s

/-- The meaning of WITHDRAW. -/
def execWithdraw (l : Link) (p : List Byte) (s : State) : Host.Outcome State Fault Refusal :=
  .next (takeWithdraw l p s)

/-- The BL's handling of a Handback (R150). -/
def Ev.handback (ev : Ev) (l : Link) (tx : BorderTx) (e : Nat) : Ev :=
  let t := ev.s.transOf e
  if t.state = .inHeld ∧ t.reference = some tx.reference then
    let entry := ev.s.entryUnder l e tx.reference (fun _ => true)
    let ev := ev.changeTrans l e {} tx.reference (.received .handback) none
    match entry with
    | some r => ev.on (fun s => s.freeBorder r e)
    | none => ev
  else ev

/-- HANDBACK (R150). -/
def takeHandback (l : Link) (p : List Byte) (s : State) : State :=
  let tx := borderTxOf .handback p
  takeBorder l (borderTransactionFits p) (fun ev => ev.onBorder l tx (ev.handback l tx)) s

/-- The meaning of HANDBACK. -/
def execHandback (l : Link) (p : List Byte) (s : State) : Host.Outcome State Fault Refusal :=
  .next (takeHandback l p s)

/-- Whether a base tick is on the Border Status schedule of a link (R137). -/
def borderTurn (l : Link) (tick : Nat) : Bool :=
  match l with
  | .b1 => tick % 50 == 0
  | .b2 => tick % 50 == 25

/-- BORDER_STATUS_SEND (R137). -/
def takeBorderStatusSend (l : Link) (s : State) : State :=
  if s.atTick && borderTurn l s.tick then s.sendBorderStatus l else s

/-- The meaning of BORDER_STATUS_SEND. -/
def execBorderStatusSend (l : Link) (s : State) : Host.Outcome State Fault Refusal :=
  .next (takeBorderStatusSend l s)

end Sys2Proof.Machine
end

