-- ==== Sys2Proof/Machine/ElementRequests.lean ====
section
/-! DEFINITION. The requests on single elements: Move Point (R20), Block Element (R21), Unblock Element (R22). -/

namespace Sys2Proof.Machine

/-- The first test of a Move Point that fails, once the element is found (R20). -/
def State.movePointRefusal (s : State) (e : Nat) : Option ReplyCode :=
  let x := s.elem e
  if s.kind e ≠ some .point then some .wrongKind
  else if x.lockOwner.isSome ∨ x.claims ≠ 0 then some .locked
  else if s.isBlocked e = true then some .blocked
  else if s.holds (s.erow e).sect .vacant = false then some .occupied
  else none

/-- The EI's part of a Move Point (R20). -/
def Ev.movePoint (tag : Half) (p : List Byte) (ev : Ev) (e : Nat) : Ev :=
  match ev.s.movePointRefusal e, sideOfCode (byteAt p 2).toNat with
  | some code, _ => ev.answer .movePoint tag code
  | none, some side => (ev.answer .movePoint tag .accepted).on (fun s => s.commandPoint e side)
  | none, none => ev.answer .movePoint tag .outOfRange

/-- MOVE_POINT (R20). -/
def takeMovePoint (tag : Half) (p : List Byte) (s : State) : State :=
  takeRequest .movePoint tag p
    (fun ev => ev.withFound .movePoint tag (ev.s.payloadElem p) (ev.movePoint tag p)) s

/-- The meaning of MOVE_POINT. -/
def execMovePoint (tag : Half) (p : List Byte) (s : State) : Host.Outcome State Fault Refusal :=
  .next (takeMovePoint tag p s)

/-- BLOCK_ELEMENT (R21): the blocked mark is set and retained. -/
def takeBlockElement (tag : Half) (p : List Byte) (s : State) : State :=
  takeRequest .blockElement tag p
    (fun ev => ev.withFound .blockElement tag (ev.s.payloadElem p)
      (fun e => (ev.answer .blockElement tag .accepted).on (fun s => s.setBlocked e true))) s

/-- The meaning of BLOCK_ELEMENT. -/
def execBlockElement (tag : Half) (p : List Byte) (s : State) : Host.Outcome State Fault Refusal :=
  .next (takeBlockElement tag p s)

/-- UNBLOCK_ELEMENT (R22): the blocked mark is cleared. -/
def takeUnblockElement (tag : Half) (p : List Byte) (s : State) : State :=
  takeRequest .unblockElement tag p
    (fun ev => ev.withFound .unblockElement tag (ev.s.payloadElem p)
      (fun e => (ev.answer .unblockElement tag .accepted).on (fun s => s.setBlocked e false))) s

/-- The meaning of UNBLOCK_ELEMENT. -/
def execUnblockElement (tag : Half) (p : List Byte) (s : State) : Host.Outcome State Fault Refusal :=
  .next (takeUnblockElement tag p s)

end Sys2Proof.Machine
end

