-- ==== Sys2Proof/Machine/Field.lean ====
section
/-! DEFINITION. The field link: received Status Telegrams (R7 to R10, R14, R16, R18, R19, R26), the refresh (R12), the
supervision deadlines (R27) and the throw watch (R17). -/

namespace Sys2Proof.Machine

/-- Whether the slow-throw comparison finds a throw slow: t x 10 > l x 8 (R16). -/
def slowThrow (t : Byte) (limit : Nat) : Bool := decide (limit * 8 < t.toNat * 10)

/-- Whether a reported state is an end position. -/
def Reported.side : Reported → Option Side
  | .left => some .left
  | .right => some .right
  | _ => none

/-- A slot field applied to a POINT sets the reported state, and the last throw time with an end position (R9). -/
def State.reportPoint (s : State) (e : Nat) (x : Reported) (t : Byte) : State :=
  s.modElem e (fun r => { r with reported := x, lastThrow := if x.side.isSome then t else r.lastThrow })

/-- The throw ends at the commanded end position (R16). -/
def Ev.endThrow (ev : Ev) (e : Nat) (t : Byte) : Ev :=
  let ev := ev.on (fun s => s.modElem e (fun r => { r with watch := none, fault := false }))
  if slowThrow t (ev.s.erow e).throwLimit then ev.elementFault .slowThrow e (lowByte t) else ev

/-- Uncommanded movement (R18): the fault mark is set; it is latched and reported where the mark was clear. -/
def Ev.uncommanded (ev : Ev) (e : Nat) : Ev :=
  if (ev.s.elem e).fault then ev
  else (ev.on (fun s => s.modElem e (fun r => { r with fault := true }))).elementFault .elementFault e
    FaultCause.uncommandedMovement.code

/-- A slot field applied to a POINT: the throw watch and movement rules (R9, R16, R18, R19). -/
def Ev.applyPoint (ev : Ev) (e : Nat) (x : Reported) (t : Byte) : Ev :=
  let ev := ev.on (fun s => s.reportPoint e x t)
  let r := ev.s.elem e
  match r.pointCmd.side with
  | none => ev
  | some side =>
    if x = side.reported then
      if r.watch.isSome then ev.endThrow e t
      else ev.on (fun s => s.modElem e (fun r => { r with fault := false }))
    else if r.watch.isNone ∧ (x = .moving ∨ x = side.other.reported) then ev.uncommanded e
    else ev

/-- A slot field applied to a SECTION (R10): VACANT clears the restore-pending mark where the telegram is taken after
the event that sent the Reset Order (R14). -/
def State.applySection (s : State) (e : Nat) (x : Reported) : State :=
  s.modElem e (fun r =>
    if r.restore = true ∧ x = .vacant ∧ r.restoreSet.all (fun t => decide (t < s.events)) = true then
      { r with reported := x, restore := false, restoreSet := none }
    else { r with reported := x })

/-- A slot field applied to an element (R8 to R10). -/
def Ev.applySlot (ev : Ev) (e : Nat) (code t : Byte) : Ev :=
  match ev.s.kind e with
  | some .point => ev.applyPoint e (reportedOfCode .point code) t
  | some .sect => ev.on (fun s => s.applySection e (reportedOfCode .sect code))
  | some .signal => ev.on (fun s => s.modElem e (fun r => { r with reported := reportedOfCode .signal code }))
  | _ => ev

/-- Renew the supervision deadline of an element (R26). -/
def State.renew (s : State) (e : Nat) : State :=
  s.modElem e (fun r => { r with deadline := some (s.deadlineAfter (intervalTicks (s.erow e).interval)) })

/-- An accepted Status Telegram is applied: the life count, the slots 0 to 3, then supervision (R8, R26). -/
def Ev.applyStatus (ev : Ev) (p : List Byte) : Ev :=
  let fec := (byteAt p 0).toNat
  let ev := ev.on (fun s => s.setLife fec (some (byteAt p 1)))
  let ev := (List.range 4).foldl (fun ev slot =>
    match ev.s.slotElem fec slot with
    | some e => ev.applySlot e (byteAt p (2 + slot)) (byteAt p (6 + slot))
    | none => ev) ev
  ev.on (fun s => (s.fecElems fec).foldl State.renew s)

/-- Steps 3 to 6 of R7. -/
def Ev.statusJudged (ev : Ev) (p : List Byte) : Ev :=
  let fec := (byteAt p 0).toNat
  if ev.s.tablesValid && ev.s.fecConfigured fec && ev.s.lifeOf fec != some (byteAt p 1) then ev.applyStatus p else ev

/-- STATUS_TELEGRAM (R7, R190). -/
def takeStatusTelegram (bytes : List Byte) (s : State) : State :=
  match statusPayload bytes with
  | none => ((Ev.start s).invalidTelegram .f).settle
  | some p => (((Ev.start s).validTelegram .f).statusJudged p).settle

/-- The meaning of STATUS_TELEGRAM. -/
def execStatusTelegram (bytes : List Byte) (s : State) : Host.Outcome State Fault Refusal :=
  .next (takeStatusTelegram bytes s)

/-- SUPERVISION_LOSS (R27): the deadline stops, the reported state becomes UNKNOWN. -/
def takeSupervisionLoss (e : Nat) (s : State) : State :=
  if s.passes (s.elem e).deadline then
    (((Ev.start s).on (fun s => s.modElem e (fun r => { r with deadline := none, reported := .unknown }))).elementFault
      .elementFault e FaultCause.supervisionLoss.code).settle
  else s

/-- The meaning of SUPERVISION_LOSS. -/
def execSupervisionLoss (e : Nat) (s : State) : Host.Outcome State Fault Refusal := .next (takeSupervisionLoss e s)

/-- Whether a context awaits a point. -/
def State.ctxAwaits (s : State) (e c : Nat) : Bool :=
  match s.ctx c with
  | some x => x.awaited.any (fun a => a.elem == e)
  | none => false

/-- THROW_TIMEOUT (R17): the watch goes idle, the fault mark is set, and each context that awaits the point fails (R89).
That several such contexts fail in ascending context number is the model's choice (DESIGN CHOICE, log entry 34). -/
def takeThrowTimeout (e : Nat) (s : State) : State :=
  if s.passes (s.elem e).watch then
    let ev := ((Ev.start s).on (fun s => s.modElem e (fun r => { r with watch := none, fault := true }))).elementFault
      .elementFault e FaultCause.throwTimeout.code
    let ev := contextNumbers.foldl (fun ev c => if ev.s.ctxAwaits e c then ev.failCtx c .pointFailed e true else ev) ev
    ev.settle
  else s

/-- The meaning of THROW_TIMEOUT. -/
def execThrowTimeout (e : Nat) (s : State) : Host.Outcome State Fault Refusal := .next (takeThrowTimeout e s)

/-- Whether a base tick is the refresh turn of a configured FEC (R12). -/
def State.refreshDue (s : State) (fec : Nat) : Bool :=
  s.tablesValid && s.fecConfigured fec && s.tick % 100 == s.refreshTurn fec

/-- COMMAND_REFRESH (R12): a Command Telegram with the current commanded states. It reads the tables-valid mark as it
stands: that one taken after a Verify Tables at the instant of the same base tick sends already, before the "next base
tick" of R181, is the model's choice (DESIGN CHOICE, log entry 41). -/
def takeCommandRefresh (fec : Nat) (s : State) : State :=
  if s.atTick && s.refreshDue fec then s.sendCommand fec else s

/-- The meaning of COMMAND_REFRESH. -/
def execCommandRefresh (fec : Nat) (s : State) : Host.Outcome State Fault Refusal := .next (takeCommandRefresh fec s)

end Sys2Proof.Machine
end

