-- ==== Sys2Proof/Machine/Verify.lean ====
section
/-! DEFINITION. The checks of Verify Tables: site parameters (R180 step 2), element table (R2), routes and lists (R54 to
R56), Flank Table (R97), and the sort of the Route Table (R40). Each check answers the record at fault. -/

namespace Sys2Proof.Machine

/-- A record at fault: its table code and its position (R192). -/
abbrev BadRecord := Nat × Nat

/-- Whether a number lies in a range, ends included. -/
def inRange (lo hi n : Nat) : Bool := decide (lo ≤ n) && decide (n ≤ hi)

/-- The checks of the site parameters (R180 step 2). -/
def checkSite (m : Memory) : Option BadRecord :=
  let timeouts := [Port.c, .f, .b1, .b2].all (fun p => inRange 0 7 (siteTimeout m p))
  let seniorities := [Link.b1, .b2].all (fun l => inRange 1 2 (siteSeniority m l))
  if timeouts && seniorities && inRange 2 30 (siteReplyTime m) && inRange 5 30 (siteAuxTime m)
      && inRange 30 300 (siteForcedTime m) then none
  else some (5, 0)

/-- The kind of an element record among N, none outside the table. -/
def tableKind (m : Memory) (n e : Nat) : Option Kind := if e < n then (elemRow m e).kind else none

/-- Whether two records of an element table carry a value that no two may carry (R2). -/
def sameName (a b : ElemRow) : Bool :=
  a.designation == b.designation
    || (match a.kind, b.kind with
        | some .border, some .border => a.addr == b.addr && a.slot == b.slot
        | some .border, _ => false
        | _, some .border => false
        | some _, some _ => a.addr == b.addr && a.slot == b.slot
        | _, _ => false)

/-- How many BORDER records stand at or before an index, on any link or on one. -/
def borderCount (m : Memory) (i : Nat) (p : ElemRow → Bool) : Nat :=
  ((List.range (i + 1)).filter (fun j => (elemRow m j).kind == some .border && p (elemRow m j))).length

/-- Whether the element record at an index meets the constraints of R2. -/
def elemOk (m : Memory) (n i : Nat) : Bool :=
  let w := elemRow m i
  let field := inRange 1 200 w.addr && inRange 0 3 w.slot && inRange 0 7 w.interval
  wellFormedDesignation w.designation
    && !((List.range i).any (fun j => sameName (elemRow m j) w))
    && (match w.kind with
        | none => false
        | some .signal => field
        | some .sect => field
        | some .point => field && inRange 20 255 w.throwLimit && tableKind m n w.sect == some .sect
        | some .border =>
          inRange 1 2 w.addr && inRange 0 7 w.slot && tableKind m n w.sect == some .sect
            && decide (borderCount m i (fun _ => true) ≤ 16)
            && decide (borderCount m i (fun x => x.addr == w.addr) ≤ 8))

/-- The check of the element table (R2). -/
def checkElems (m : Memory) : Option BadRecord :=
  let n := siteElements m
  if inRange 1 512 n then ((List.range n).find? (fun i => !elemOk m n i)).map (fun i => (1, i)) else some (1, 0)

/-- The kinds that may stand at the ends of a route (R41). -/
def endKinds : RouteKind → Kind × Kind
  | .main => (.signal, .signal)
  | .shunt => (.signal, .signal)
  | .exit => (.signal, .border)
  | .entry => (.border, .signal)

/-- The most entries of the overlap list and of the approach list of a kind (R41). -/
def listLimits : RouteKind → Nat × Nat
  | .main => (8, 4)
  | .shunt => (0, 4)
  | .exit => (0, 4)
  | .entry => (8, 0)

/-- Whether a list lies within the List Store (R54 check 6). -/
def listFits (first count : Nat) : Bool := count == 0 || decide (first + count ≤ 12288)

/-- Whether a route record meets the checks of R54. -/
def routeOk (m : Memory) (n pos : Nat) : Bool :=
  let w := routeRow m pos
  match w.kind with
  | none => false
  | some k =>
    tableKind m n w.start == some (endKinds k).1 && tableKind m n w.dest == some (endKinds k).2 && w.start != w.dest
      && inRange 0 3 w.variant && inRange 1 8 w.groups && inRange 0 8191 w.length && inRange 10 250 w.speed
      && inRange 0 120 w.margin && inRange 0 240 w.ovTime
      && inRange 1 40 w.pathCount && inRange 0 (listLimits k).1 w.ovCount && inRange 0 (listLimits k).2 w.apCount
      && inRange 0 8 w.flCount
      && listFits w.pathFirst w.pathCount && listFits w.ovFirst w.ovCount && listFits w.apFirst w.apCount
      && listFits w.flFirst w.flCount
      && (w.ovCount != 0 || w.ovTime == 0)
      && (if k = .exit then w.berth == w.dest
          else tableKind m n w.berth == some .sect && !((pathOf m w).any (fun x => x.target == w.berth)))

/-- The roles of list entries (R43). -/
inductive Role where
  | path | overlap | approach | flank
  deriving DecidableEq, Repr

/-- Role codes (section 12.6). -/
def Role.code : Role → Nat
  | .path => 1
  | .overlap => 2
  | .approach => 3
  | .flank => 4

/-- The list entries of a route in the order R55 takes them: each with its role and its List Store index. -/
def routeEntries (w : RouteRow) : List (Role × Nat) :=
  let run (r : Role) (first count : Nat) : List (Role × Nat) := (List.range count).map (fun k => (r, first + k))
  run .path w.pathFirst w.pathCount ++ run .overlap w.ovFirst w.ovCount ++ run .approach w.apFirst w.apCount
    ++ run .flank w.flFirst w.flCount

/-- The List Store indices that the lists of the routes below a load position cover. -/
def coveredBelow (m : Memory) (pos : Nat) : List Nat :=
  ((List.range pos).map (fun q => (routeEntries (routeRow m q)).map (·.2))).flatten

/-- Whether an extra test is sound (R55 check 9, R193). -/
def testOk (x : ListRow) (r : Role) : Bool :=
  x.testKind == 0
    || (r != .flank && decide (x.testKind ≤ 3) && x.testSet != 0 && x.testSet.extractLsb' 18 6 == 0)

/-- Whether a list entry meets the checks of R55. `below` holds the indices that lower routes cover and `earlier` the
entries of this route before it. -/
def entryOk (m : Memory) (n : Nat) (w : RouteRow) (below : List Nat) (earlier : List (Role × Nat)) (r : Role)
    (i : Nat) : Bool :=
  let x := listRow m i
  let k := tableKind m n x.target
  let elems := (earlier.filter (fun y => y.1 != .flank)).map (fun y => (listRow m y.2).target)
  let lastPath := ((earlier.filter (fun y => y.1 == .path)).reverse.head?).map (fun y => (listRow m y.2).group)
  x.role == r.code && !below.contains i && ((routeEntries w).filter (fun y => y.2 == i)).length == 1 && testOk x r
    && (match r with
        | .flank =>
          decide (x.target ≤ 1023) && (inRange 1 w.groups x.group || (x.group == 255 && w.ovCount != 0))
        | .approach => k == some .sect
        | .path | .overlap =>
          (k == some .sect || (k == some .point && (sideOfCode x.position).isSome)))
    && (match r with
        | .path => inRange 1 w.groups x.group && decide (lastPath.getD 0 ≤ x.group)
        | _ => true)
    && (match r with
        | .flank => true
        | _ => x.target != w.start && x.target != w.dest && !elems.contains x.target)

/-- The first list entry at fault among those still to be checked (R55). -/
def firstBadEntry (m : Memory) (n : Nat) (w : RouteRow) (below : List Nat) :
    List (Role × Nat) → List (Role × Nat) → Option Nat
  | _, [] => none
  | earlier, (r, i) :: rest =>
    if entryOk m n w below earlier r i then firstBadEntry m n w below (earlier ++ [(r, i)]) rest else some i

/-- Whether every group from 1 to G holds a PATH entry of a SECTION (R44, R55). -/
def groupsOk (m : Memory) (n : Nat) (w : RouteRow) : Bool :=
  (List.range w.groups).all (fun g =>
    (pathOf m w).any (fun x => x.group == g + 1 && tableKind m n x.target == some .sect))

/-- The check of one route with its lists (R54, R55): the record, the path list, the groups, then the other lists (log
entry 19). -/
def checkRoute (m : Memory) (n pos : Nat) : Option BadRecord :=
  let w := routeRow m pos
  if routeOk m n pos then
    let below := coveredBelow m pos
    let path := (routeEntries w).take w.pathCount
    match firstBadEntry m n w below [] path with
    | some i => some (3, i)
    | none =>
      if groupsOk m n w then
        (firstBadEntry m n w below path ((routeEntries w).drop w.pathCount)).map (fun i => (3, i))
      else some (2, pos)
  else some (2, pos)

/-- Whether two route records carry the same key. -/
def sameKey (a b : RouteRow) : Bool := a.start == b.start && a.dest == b.dest && a.variant == b.variant

/-- The check of the Route Table, its lists and its keys (R54 to R56). -/
def checkRoutes (m : Memory) : Option BadRecord :=
  let n := siteElements m
  let total := siteRoutes m
  if inRange 1 384 total then
    ((List.range total).findSome? (checkRoute m n)).orElse (fun _ =>
      ((List.range total).find? (fun p =>
        (List.range p).any (fun q => sameKey (routeRow m q) (routeRow m p)))).map (fun p => (2, p)))
  else some (2, 0)

/-- The heads that the routes name, in the order of their FLANK_REQUIREMENT entries (R97). -/
def flankHeads (m : Memory) : List Nat :=
  ((List.range (siteRoutes m)).map (fun r => (flankReqsOf m (routeRow m r)).map (·.target))).flatten.eraseDups

/-- Whether a flank entry's protecting element and required state are sound (R97 checks 1 and 2). -/
def flankEntryOk (m : Memory) (n i : Nat) : Bool :=
  let f := flankRow m i
  match tableKind m n f.elem, f.state with
  | some .point, some .left => true
  | some .point, some .right => true
  | some .signal, some .danger => true
  | _, _ => false

/-- Walk a chain from an entry; `met` holds the entries met in this walk (R97). The first number bounds the walk: the
fifth entry at the latest ends it. -/
def checkChain (m : Memory) (n head : Nat) : Nat → List Nat → Nat → Option Nat
  | 0, _, _ => some head
  | k + 1, met, i =>
    if !flankEntryOk m n i then some i
    else if met.contains i then some head
    else if met.length = 4 then some head
    else
      match (flankRow m i).next with
      | some j => checkChain m n head k (i :: met) j
      | none => none

/-- The check of the Flank Table (R97). -/
def checkFlank (m : Memory) : Option BadRecord :=
  ((flankHeads m).findSome? (fun h => checkChain m (siteElements m) h 5 [] h)).map (fun i => (4, i))

/-- The checks of Verify Tables after the CRC-32 (R180 steps 2 to 5). -/
def checkTables (m : Memory) : Option BadRecord :=
  (checkSite m).orElse (fun _ => (checkElems m).orElse (fun _ => (checkRoutes m).orElse (fun _ => checkFlank m)))

/-- Whether one route key precedes another: start, then destination, then variant (R40). -/
def keyLt (a b : RouteRow) : Bool :=
  decide (a.start < b.start)
    || (a.start == b.start && (decide (a.dest < b.dest) || (a.dest == b.dest && decide (a.variant < b.variant))))

/-- Insert a load position into positions in ascending order of route key. -/
def insertPos (m : Memory) (p : Nat) : List Nat → List Nat
  | [] => [p]
  | q :: t => if keyLt (routeRow m p) (routeRow m q) then p :: q :: t else q :: insertPos m p t

/-- The load positions of the R records in ascending order of route key. -/
def sortedPositions (m : Memory) : List Nat :=
  (List.range (siteRoutes m)).foldl (fun acc p => insertPos m p acc) []

/-- Sort the Route Table into route index order (R40, R181 step 1). -/
def sortRoutes (m : Memory) : Memory :=
  Memory.writeAll m routeBase (((sortedPositions m).map (fun p => Memory.bytes m (routeBase + 26 * p) 26)).flatten)

end Sys2Proof.Machine
end

