-- ==== Sys2Proof/Machine/Maintenance.lean ====
section
/-! DEFINITION. The MAINTENANCE-class requests: Load Table Segment (R179), Verify Tables (R180, R181), Enter Operation
(R184), Leave Operation (R185) and Restart (R186). -/

namespace Sys2Proof.Machine

/-- The tables-valid mark is cleared, with its effects across the part where it was set (R179 step 2): the map is empty,
supervision and the EI records are reset, the life counts are absent and the transaction records are dropped. -/
def State.dropTables (s : State) : State :=
  { s with dmap := [], elems := [], life := [], trans := [] }

/-- Clear the tables-valid mark (R179 step 2, R180). -/
def State.clearValid (s : State) : State := if s.tablesValid then { s.dropTables with tablesValid := false } else s

/-- LOAD_TABLE_SEGMENT (R179): write the records, clear the mark. -/
def State.loadSegment (s : State) (p : List Byte) : State :=
  let t := byteAt p 0
  let first := (halfAt p 1).toNat
  let s := s.clearValid
  { s with store := Memory.writeAll s.store (tableBase t + recordSize t * first) (p.drop 3) }

/-- LOAD_TABLE_SEGMENT (R179). -/
def takeLoadTableSegment (tag : Half) (p : List Byte) (s : State) : State :=
  takeRequest .loadTableSegment tag p
    (fun ev => (ev.on (fun s => s.loadSegment p)).answer .loadTableSegment tag .accepted) s

/-- The meaning of LOAD_TABLE_SEGMENT. -/
def execLoadTableSegment (tag : Half) (p : List Byte) (s : State) : Host.Outcome State Fault Refusal :=
  .next (takeLoadTableSegment tag p s)

/-- The state at step 6 of R181, before the blocked set and the aux counter are cleared. -/
def State.installTables (s : State) : State :=
  let s := if s.tablesValid then s.dropTables else s
  let m := sortRoutes s.store
  { s with store := m, dmap := buildMap m, trans := [], storedCrc := tableCrc m, tablesValid := true }

/-- Verify Tables succeeds (R181). What the clearing of the mark changes gives no Element Report; the blocked marks that
step 6 clears are handed on (R22, log entry 18). -/
def Ev.verified (tag : Half) (ev : Ev) : Ev :=
  let s := ev.s.installTables
  ({ ev with before := s, s := { s with blocked := [], auxCounter := 0 } }).reply .verifyTables tag .accepted
    (.crc s.storedCrc)

/-- The TM's steps of Verify Tables (R180). -/
def Ev.verify (tag : Half) (p : List Byte) (ev : Ev) : Ev :=
  let computed := tableCrc ev.s.store
  if computed = word32 (byteAt p 0) (byteAt p 1) (byteAt p 2) (byteAt p 3) then
    match checkTables ev.s.store with
    | some (table, pos) => (ev.on State.clearValid).reply .verifyTables tag .tableInvalid (.record table pos)
    | none => ev.verified tag
  else (ev.on State.clearValid).reply .verifyTables tag .tableMismatch (.crc computed)

/-- VERIFY_TABLES (R180, R181). -/
def takeVerifyTables (tag : Half) (p : List Byte) (s : State) : State :=
  takeRequest .verifyTables tag p (Ev.verify tag p) s

/-- The meaning of VERIFY_TABLES. -/
def execVerifyTables (tag : Half) (p : List Byte) (s : State) : Host.Outcome State Fault Refusal :=
  .next (takeVerifyTables tag p s)

/-- The STARTUP period in base ticks: twice the longest supervision interval among the POINT, SIGNAL and SECTION
elements (R184). -/
def State.startupTicks (s : State) : Nat :=
  2 * (s.elemIndices.foldl (fun acc e =>
    match s.kind e with
    | some k => if k.onField then max acc (intervalTicks (s.erow e).interval) else acc
    | none => acc) 0)

/-- The mode becomes STARTUP and the STARTUP deadline is set (R184). -/
def Ev.enterStartup (ev : Ev) (cause : ModeCause) : Ev :=
  (ev.enterMode .startup cause).on
    (fun s => { s with startupDeadline := some (s.deadlineAfter s.startupTicks) })

/-- The TM's part of Enter Operation (R184). -/
def Ev.enterOperation (tag : Half) (ev : Ev) : Ev :=
  if ev.s.tablesValid then (ev.answer .enterOperation tag .accepted).enterStartup .enterOperation
  else ev.reply .enterOperation tag .tableInvalid (.record 0 0)

/-- ENTER_OPERATION (R184). -/
def takeEnterOperation (tag : Half) (p : List Byte) (s : State) : State :=
  takeRequest .enterOperation tag p (Ev.enterOperation tag) s

/-- The meaning of ENTER_OPERATION. -/
def execEnterOperation (tag : Half) (p : List Byte) (s : State) : Host.Outcome State Fault Refusal :=
  .next (takeEnterOperation tag p s)

/-- Whether every route is FREE, every context FREE and every transaction IDLE (R185). -/
def State.idleRoutes (s : State) : Bool :=
  s.activeRoutes.isEmpty && contextNumbers.all (fun c => (s.ctx c).isNone)
    && s.elemIndices.all (fun e => (s.transOf e).state == .idle)

/-- Every point commanded LEFT or RIGHT is commanded HOLD (R183). -/
def State.pointsToHold (s : State) : State :=
  (s.elemIndices.filter (fun e => s.kind e == some .point && (s.elem e).pointCmd != .hold)).foldl
    State.commandHold s

/-- The TM's part of Leave Operation (R185). -/
def Ev.leaveOperation (tag : Half) (ev : Ev) : Ev :=
  if ev.s.idleRoutes then
    (((ev.answer .leaveOperation tag .accepted).enterMode .maintenance .leaveOperation).endAux
      (.discarded .modeChange)).on State.pointsToHold
  else ev.answer .leaveOperation tag .busyRoutes

/-- LEAVE_OPERATION (R185). -/
def takeLeaveOperation (tag : Half) (p : List Byte) (s : State) : State :=
  takeRequest .leaveOperation tag p (Ev.leaveOperation tag) s

/-- The meaning of LEAVE_OPERATION. -/
def execLeaveOperation (tag : Half) (p : List Byte) (s : State) : Host.Outcome State Fault Refusal :=
  .next (takeLeaveOperation tag p s)

/-- RESTART (R186): the Reply is sent; the reset is RESTART_RESET (log entry 7). -/
def takeRestart (tag : Half) (p : List Byte) (s : State) : State :=
  takeRequest .restart tag p
    (fun ev => (ev.answer .restart tag .accepted).on (fun s => { s with restartPending := true })) s

/-- The meaning of RESTART. -/
def execRestart (tag : Half) (p : List Byte) (s : State) : Host.Outcome State Fault Refusal :=
  .next (takeRestart tag p s)

end Sys2Proof.Machine
end

