-- ==== Sys2Proof/Machine/Internal.lean ====
section
/-! DEFINITION. The events inside the part: resets (R186), reservation (R80 to R84), timers and deadlines (R35, R60, R68,
R70, R184), the background check (R187, R188) and the report sender (R168, R176). -/

namespace Sys2Proof.Machine

/-- Every runtime record at its reset value; the retained state, the waiting commands and the model's own logs are kept
(R178, R186). -/
def State.resetRuntime (s : State) : State :=
  { pending := s.pending, store := s.store, storedCrc := s.storedCrc, tablesValid := s.tablesValid,
    blocked := s.blocked, auxCounter := s.auxCounter, events := s.events, sent := s.sent }

/-- The Mode Report after a reset, with SAFE_N following the mode (R182). -/
def Ev.resetMode (ev : Ev) (m : Mode) : Ev :=
  (ev.on (fun s => { s with mode := m, safeN := decide (m = .startup ∨ m = .operational) })).raise .route
    (.mode none m .reset)

/-- TABLE_FAULT with its Fault Report (R186, R187). -/
def Ev.tableFault (ev : Ev) (cause : FaultCause) : Ev :=
  ev.fault .route { cls := .tableFault, designation := 0, port := none, route := none, cause := cause.code }

/-- The start-up check (R186). -/
def Ev.startCheck (ev : Ev) : Ev :=
  if ev.s.tablesValid then
    if tableCrc ev.s.store = ev.s.storedCrc then
      let ev := (ev.on (fun s => { s with dmap := buildMap s.store })).resetMode .startup
      ev.on (fun s => { s with startupDeadline := some (s.deadlineAfter s.startupTicks) })
    else
      ((ev.on (fun s => { s with tablesValid := false })).tableFault .startCheck).resetMode .maintenance
  else ev.resetMode .maintenance

/-- Power-on reset and Restart: every runtime record at its reset value, then the start-up check (R186). -/
def State.doReset (s : State) : State := ((Ev.start s.resetRuntime).startCheck).commit

/-- POWER_ON_RESET (R186). -/
def takePowerOnReset (s : State) : State := s.doReset

/-- The meaning of POWER_ON_RESET. -/
def execPowerOnReset (s : State) : Host.Outcome State Fault Refusal := .next (takePowerOnReset s)

/-- RESTART_RESET (R186): the reset that follows an accepted Restart, where one is to come (log entry 7). -/
def takeRestartReset (s : State) : State := if s.restartPending then s.doReset else s

/-- The meaning of RESTART_RESET. -/
def execRestartReset (s : State) : Host.Outcome State Fault Refusal := .next (takeRestartReset s)

/-- The request and the context of the next reservation, where one is possible (R80). -/
def State.nextReservation (s : State) : Option (Nat × Request) :=
  match s.mode, s.requests, s.freeCtxNumber with
  | .operational, q :: _, some c => some (c, q)
  | _, _, _ => none

/-- The taking context's reservation of the head request (R81, R82). -/
def Ev.reservation (ev : Ev) (c : Nat) (q : Request) : Ev :=
  let outcome := ev.s.reservationOutcome q.route
  let ev := ev.on (fun s => { s with requests := s.requests.drop 1 })
  match outcome with
  | .ok res => ev.reserve c q res
  | .error x => ev.refuseReservation q x

/-- RESERVATION (R80, R81). -/
def takeReservation (s : State) : State :=
  match s.nextReservation with
  | some (c, q) => ((Ev.start s).reservation c q).settle
  | none => s

/-- The meaning of RESERVATION. -/
def execReservation (s : State) : Host.Outcome State Fault Refusal := .next (takeReservation s)

/-- LINK_TIMER_EXPIRY (R34, R35): in UP the link becomes LOST; in DOWN and LOST the count returns to 0 and the timer
stops. -/
def takeLinkTimerExpiry (p : Port) (s : State) : State :=
  let l := s.link p
  if s.passes l.timer then
    if l.state = .up then ((Ev.start s).linkLost p).settle
    else ((Ev.start s).on (fun s => s.setLink p { l with count := 0, timer := none })).settle
  else s

/-- The meaning of LINK_TIMER_EXPIRY. -/
def execLinkTimerExpiry (p : Port) (s : State) : Host.Outcome State Fault Refusal := .next (takeLinkTimerExpiry p s)

/-- The owner acts on the expiry of its release timer (R68, R126, R132, R162). -/
def Ev.actOnExpiry (ev : Ev) (h : HeldTimer) : Ev :=
  match h.purpose with
  | .approach => ev.fullRelease h.owner
  | .overlap => ev.endOverlap h.owner
  | .forced => ev.fullRelease h.owner
  | .none => ev

/-- The expiry of a release timer: it is freed, delivered, and taken by the head of the wait list (R67, R68). -/
def Ev.releaseExpiry (ev : Ev) (t : Nat) (h : HeldTimer) : Ev :=
  ((ev.on (fun s => (s.setTimer t none).modRoute h.owner RouteRec.noTimer)).actOnExpiry h).on
    (fun s => s.freeTimer t)

/-- RELEASE_TIMER_EXPIRY (R68). -/
def takeReleaseTimerExpiry (t : Nat) (s : State) : State :=
  match s.timerOf t with
  | some h => if h.timer.expired then ((Ev.start s).releaseExpiry t h).settle else s
  | none => s

/-- The meaning of RELEASE_TIMER_EXPIRY. -/
def execReleaseTimerExpiry (t : Nat) (s : State) : Host.Outcome State Fault Refusal :=
  .next (takeReleaseTimerExpiry t s)

/-- The expiry of a context timer: the timer is stopped and the context fails with BORDER_TIMEOUT, naming its
destination BORDER element (R70, R89). -/
def Ev.contextExpiry (ev : Ev) (c : Nat) : Ev :=
  let ev := ev.on (fun s => s.setCtxTimer c none)
  match ev.s.ctx c with
  | some x => ev.failCtx c .borderTimeout (ev.s.rrow x.route).dest true
  | none => ev

/-- CONTEXT_TIMER_EXPIRY (R70). -/
def takeContextTimerExpiry (c : Nat) (s : State) : State :=
  match s.ctxTimer c with
  | some t => if t.expired then ((Ev.start s).contextExpiry c).settle else s
  | none => s

/-- The meaning of CONTEXT_TIMER_EXPIRY. -/
def execContextTimerExpiry (c : Nat) (s : State) : Host.Outcome State Fault Refusal :=
  .next (takeContextTimerExpiry c s)

/-- STARTUP_END (R184): the mode becomes OPERATIONAL. -/
def takeStartupEnd (s : State) : State :=
  if s.mode = .startup ∧ s.passes s.startupDeadline = true then
    (((Ev.start s).on (fun s => { s with startupDeadline := none })).enterMode .operational .startupEnd).settle
  else s

/-- The meaning of STARTUP_END. -/
def execStartupEnd (s : State) : Host.Outcome State Fault Refusal := .next (takeStartupEnd s)

/-- Entry into SAFE_STOP (R188): the mode first, then the SE with its Declines and Withdraws, the RM and the AU, whose
reports follow in this order. -/
def Ev.enterSafeStop (ev : Ev) : Ev :=
  ev.inOrder .safeStop 0
    [fun ev => (ev.enterMode .safeStop .tableCheck).on (fun s => { s with startupDeadline := none }),
     Ev.settingSafeStop, Ev.monitorSafeStop, fun ev => ev.endAux (.discarded .modeChange)]

/-- A mismatch in the background check (R187). -/
def Ev.checkFailed (ev : Ev) : Ev :=
  let ev := ev.tableFault .backgroundCheck
  if ev.s.mode = .startup ∨ ev.s.mode = .operational then ev.enterSafeStop else ev

/-- BACKGROUND_CHECK (R187). It reads the mode as it stands, so one that a sender puts behind an Enter Operation at the
instant of the same base tick is made: the model's choice (DESIGN CHOICE, log entry 44). -/
def takeBackgroundCheck (s : State) : State :=
  if s.atTick ∧ s.tick % 6000 = 0 ∧ s.mode ≠ .maintenance then
    if tableCrc s.store = s.storedCrc then s else ((Ev.start s).checkFailed).settle
  else s

/-- The meaning of BACKGROUND_CHECK. -/
def execBackgroundCheck (s : State) : Host.Outcome State Fault Refusal := .next (takeBackgroundCheck s)

/-- The Fault Report of class REPORT_OVERRUN, carrying the lost-report count (R176). -/
def State.overrunReport (s : State) : Report :=
  .fault { cls := .reportOverrun, designation := 0, port := none, route := none, cause := BitVec.ofNat 16 s.lost }

/-- The overrun notice goes into the place freed by a sending (R176). -/
def State.noticeOverrun (s : State) : State :=
  if s.notice then
    if s.mask.getLsbD Latch.reportOverrun.bit then
      { s with queue := s.queue ++ [s.overrunReport], lost := 0, notice := false }
    else { s with notice := false }
  else s

/-- REPORT_SEND (R168, R176): while the C-port link is UP, the head report goes out with the sequence count. -/
def takeReportSend (s : State) : State :=
  if s.linkC.state = .up then
    match s.queue with
    | r :: rest =>
      ({ s with queue := rest, seq := s.seq + 1 }.send .c (.report s.seq r)).noticeOverrun
    | [] => s
  else s

/-- The meaning of REPORT_SEND. -/
def execReportSend (s : State) : Host.Outcome State Fault Refusal := .next (takeReportSend s)

/-- RATE_TICK (R58, R60): rate tick k falls at a base tick whose count is a multiple of 2^k. -/
def takeRateTick (k : Nat) (s : State) : State :=
  if s.atTick ∧ k < 8 ∧ s.tick % 2 ^ k = 0 then s.rateTick k else s

/-- The meaning of RATE_TICK. -/
def execRateTick (k : Nat) (s : State) : Host.Outcome State Fault Refusal := .next (takeRateTick k s)

end Sys2Proof.Machine
end

