-- ==== Sys2Proof/Decode.lean ====
section
/-! DEFINITION. From bytes to commands: the command a telegram on a port spells, the frame that spells a request or a
border telegram, and decodeTableWord (the table gives no row any bits). -/

namespace Sys2Proof

/-- The command a word spells by the bits of spec/opcode_table.json. No row of the table gives bits, so no word spells
one. -/
def decodeTableWord (_nbits _w : Nat) : Option Instr := none

/-- The command of a C-port request kind. -/
def requestInstr (q : Machine.Req) (tag : Half) (p : List Byte) : Instr :=
  match q with
  | .setRoute => .setRoute tag p
  | .cancelRoute => .cancelRoute tag p
  | .reSignal => .reSignal tag p
  | .movePoint => .movePoint tag p
  | .blockElement => .blockElement tag p
  | .unblockElement => .unblockElement tag p
  | .auxPrepare => .auxPrepare tag p
  | .auxConfirm => .auxConfirm tag p
  | .readElement => .readElement tag p
  | .readRoute => .readRoute tag p
  | .readIndications => .readIndications tag p
  | .acknowledgeIndications => .acknowledgeIndications tag p
  | .setReportMask => .setReportMask tag p
  | .loadTableSegment => .loadTableSegment tag p
  | .verifyTables => .verifyTables tag p
  | .enterOperation => .enterOperation tag p
  | .leaveOperation => .leaveOperation tag p
  | .restart => .restart tag p

/-- The command that the bytes of a C-port telegram spell (R166 steps 1 and 2). -/
def decodeCPort (bytes : List Byte) : Instr :=
  match Machine.parseFrame bytes with
  | none => .unknownKind bytes
  | some f =>
    match Machine.reqOfCodes f.cls f.kind with
    | none => .unknownKind bytes
    | some q => requestInstr q f.tag f.payload

/-- The command of a border telegram of a kind code, none where the kind or the length does not fit (R191). -/
def borderInstr (l : Link) (kind : Byte) (p : List Byte) : Option Instr :=
  if kind = 0x10 then (if Machine.borderStatusFits p then some (.borderStatus l p) else none)
  else if Machine.borderTransactionFits p then
    if kind = 0x11 then some (.offer l p)
    else if kind = 0x12 then some (.accept l p)
    else if kind = 0x13 then some (.decline l p)
    else if kind = 0x14 then some (.withdraw l p)
    else if kind = 0x15 then some (.handback l p)
    else none
  else none

/-- The command that the bytes of a B-link telegram spell (R33, R191). -/
def decodeBPort (l : Link) (bytes : List Byte) : Instr :=
  match Machine.parseFrame bytes with
  | none => .invalidBorderTelegram l bytes
  | some f =>
    if f.cls = 0x20 then (borderInstr l f.kind f.payload).getD (.invalidBorderTelegram l bytes)
    else .invalidBorderTelegram l bytes

/-- The frame of a C-port request. -/
def requestBytes (q : Machine.Req) (tag : Half) (p : List Byte) : List Byte :=
  (Machine.Frame.mk q.cls.code q.code tag p).bytes

/-- The frame of a B-link telegram; the tag field is 0 (R189). -/
def borderBytes (kind : Byte) (p : List Byte) : List Byte := (Machine.Frame.mk 0x20 kind 0 p).bytes

/-- The port a telegram command arrives on and the bytes that spell it; none for a command that is no telegram. -/
def encodeTelegram : Instr → Option (Port × List Byte)
  | .setRoute t p => some (.c, requestBytes .setRoute t p)
  | .cancelRoute t p => some (.c, requestBytes .cancelRoute t p)
  | .reSignal t p => some (.c, requestBytes .reSignal t p)
  | .movePoint t p => some (.c, requestBytes .movePoint t p)
  | .blockElement t p => some (.c, requestBytes .blockElement t p)
  | .unblockElement t p => some (.c, requestBytes .unblockElement t p)
  | .auxPrepare t p => some (.c, requestBytes .auxPrepare t p)
  | .auxConfirm t p => some (.c, requestBytes .auxConfirm t p)
  | .readElement t p => some (.c, requestBytes .readElement t p)
  | .readRoute t p => some (.c, requestBytes .readRoute t p)
  | .readIndications t p => some (.c, requestBytes .readIndications t p)
  | .acknowledgeIndications t p => some (.c, requestBytes .acknowledgeIndications t p)
  | .setReportMask t p => some (.c, requestBytes .setReportMask t p)
  | .loadTableSegment t p => some (.c, requestBytes .loadTableSegment t p)
  | .verifyTables t p => some (.c, requestBytes .verifyTables t p)
  | .enterOperation t p => some (.c, requestBytes .enterOperation t p)
  | .leaveOperation t p => some (.c, requestBytes .leaveOperation t p)
  | .restart t p => some (.c, requestBytes .restart t p)
  | .unknownKind bytes => some (.c, bytes)
  | .statusTelegram bytes => some (.f, bytes)
  | .borderStatus l p => some (l.port, borderBytes 0x10 p)
  | .offer l p => some (l.port, borderBytes 0x11 p)
  | .accept l p => some (l.port, borderBytes 0x12 p)
  | .decline l p => some (l.port, borderBytes 0x13 p)
  | .withdraw l p => some (l.port, borderBytes 0x14 p)
  | .handback l p => some (l.port, borderBytes 0x15 p)
  | .invalidBorderTelegram l bytes => some (l.port, bytes)
  | .powerOnReset | .restartReset | .reservation | .supervisionLoss _ | .throwTimeout _ | .linkTimerExpiry _
  | .releaseTimerExpiry _ | .contextTimerExpiry _ | .auxWindowExpiry | .startupEnd | .backgroundCheck
  | .borderStatusSend _ | .commandRefresh _ | .reportSend | .rateTick _ => none

/-- The command that the bytes of a telegram arriving on a port spell. -/
def decodeTelegram (port : Port) (bytes : List Byte) : Instr :=
  match port with
  | .c => decodeCPort bytes
  | .f => .statusTelegram bytes
  | .b1 => decodeBPort .b1 bytes
  | .b2 => decodeBPort .b2 bytes

end Sys2Proof
end

