-- ==== Sys2Proof/Machine/StatusRequests.lean ====
section
/-! DEFINITION. The STATUS-class requests: Read Element (R169), Read Route (R170), Read Indications (R171), Acknowledge
Indications (R172) and Set Report Mask (R173). -/

namespace Sys2Proof.Machine

/-- What Read Element adds for a BORDER element (R156). -/
def State.borderRead (s : State) (e : Nat) : Option BorderRead :=
  match s.elemLink e with
  | some l =>
    let x := s.elem e
    let t := s.transOf e
    some { link := l, point := (s.erow e).slot, nbr := x.nbr, entryProven := x.nbrEntryProven,
           onwardClear := x.nbrOnwardClear, proven := x.proven, trans := t.state, reference := t.reference,
           lastKind := t.lastSent.map (·.kind) }
  | none => none

/-- A field that only some kinds carry. -/
def onKinds {α : Type} (ks : List Kind) (k : Kind) (x : α) : Option α := if k ∈ ks then some x else none

/-- What Read Element returns (R169). -/
def State.readElement (s : State) (e : Nat) (k : Kind) : ElementRead :=
  let x := s.elem e
  { designation := s.desig e
    kind := k
    index := e
    reported := s.reportedByte e
    lastThrow := onKinds [.point] k x.lastThrow
    commanded := s.commandByte e
    lockOwner := x.lockOwner.map s.routeKeyOf
    claims := onKinds [.point, .signal] k x.claims
    claimed := onKinds [.point] k x.claimed
    blocked := s.isBlocked e
    fault := onKinds [.point] k x.fault
    restore := onKinds [.sect] k x.restore
    supervised := s.supervised e
    watch := onKinds [.point] k x.watch.isSome
    conditions := s.condSet e
    border := if k = .border then s.borderRead e else none }

/-- The answer to a Read Element whose element is found (R169). -/
def Ev.readElement (tag : Half) (ev : Ev) (e : Nat) : Ev :=
  match ev.s.kind e with
  | some k => ev.reply .readElement tag .accepted (.element (ev.s.readElement e k))
  | none => ev.answer .readElement tag .unknownElement

/-- READ_ELEMENT (R169). -/
def takeReadElement (tag : Half) (p : List Byte) (s : State) : State :=
  takeRequest .readElement tag p
    (fun ev => ev.withFound .readElement tag (ev.s.payloadElem p) (ev.readElement tag)) s

/-- The meaning of READ_ELEMENT. -/
def execReadElement (tag : Half) (p : List Byte) (s : State) : Host.Outcome State Fault Refusal :=
  .next (takeReadElement tag p s)

/-- The rate and count of the release timer that a route holds (R72). Between the rate tick that steps the count from 255
to 0 and the taking of the expiry, the count read is 0: the model's choice (DESIGN CHOICE, log entry 26). -/
def State.runningTimer (s : State) (r : Nat) : Option (Nat × Byte) :=
  match (s.route r).timer with
  | some t => (s.timerOf t).map (fun h => (h.timer.rate, h.timer.count))
  | none => none

/-- The awaited set and the Offer reference of a route in SETTING (R170). The points are listed in the order of
State.routePoints: the model's choice (DESIGN CHOICE, log entry 38). -/
def State.awaitedRead (s : State) (r : Nat) : Option (List Half × Bool × Option Byte) :=
  if (s.route r).state = .setting then
    match s.ctxOf r with
    | some c => (s.ctx c).map (fun x => (x.awaited.map (fun a => s.desig a.elem), x.reply, x.offerRef))
    | none => none
  else none

/-- What Read Route returns (R72, R111, R170). -/
def State.readRoute (s : State) (r : Nat) : RouteRead :=
  let w := s.route r
  { index := r
    kind := BitVec.ofNat 8 (s.rrow r).kindCode
    state := w.state
    origin := w.origin
    context := w.context
    clearWanted := w.clearWanted
    wasCleared := w.wasCleared
    aspect := w.aspect
    groups := w.groups
    flank := w.flank.map (fun f => (s.desig f.elem, f.state, f.group))
    timer := w.timer
    purpose := w.purpose
    deferred := w.deferred
    clamped := w.clamped
    running := s.runningTimer r
    awaited := s.awaitedRead r }

/-- READ_ROUTE (R170). -/
def takeReadRoute (tag : Half) (p : List Byte) (s : State) : State :=
  takeRequest .readRoute tag p
    (fun ev => ev.withFound .readRoute tag (ev.s.payloadRoute p)
      (fun r => ev.reply .readRoute tag .accepted (.route (ev.s.readRoute r)))) s

/-- The meaning of READ_ROUTE. -/
def execReadRoute (tag : Half) (p : List Byte) (s : State) : Host.Outcome State Fault Refusal :=
  .next (takeReadRoute tag p s)

/-- What Read Indications returns (R171). -/
def State.readIndications (s : State) : IndicationsRead :=
  { mode := s.mode
    tablesValid := s.tablesValid
    links := [s.linkC.state, s.linkF.state, s.linkB1.state, s.linkB2.state]
    latches := s.latches
    lostPorts := s.lostPorts
    auxCounter := s.auxCounter
    storedCrc := s.storedCrc
    mask := s.mask
    queued := s.queue.length
    lost := s.lost
    notice := s.notice
    seq := s.seq }

/-- READ_INDICATIONS (R171). -/
def takeReadIndications (tag : Half) (p : List Byte) (s : State) : State :=
  takeRequest .readIndications tag p
    (fun ev => ev.reply .readIndications tag .accepted (.indications ev.s.readIndications)) s

/-- The meaning of READ_INDICATIONS. -/
def execReadIndications (tag : Half) (p : List Byte) (s : State) : Host.Outcome State Fault Refusal :=
  .next (takeReadIndications tag p s)

/-- Clear the latches of a set; LINK_FAULT's ports and REPORT_OVERRUN's count and notice go with them (R172). -/
def State.acknowledge (s : State) (set : BitVec 8) : State :=
  { s with
    latches := s.latches &&& ~~~set
    lostPorts := if set.getLsbD Latch.linkFault.bit then 0 else s.lostPorts
    lost := if set.getLsbD Latch.reportOverrun.bit then 0 else s.lost
    notice := s.notice && !set.getLsbD Latch.reportOverrun.bit }

/-- ACKNOWLEDGE_INDICATIONS (R172). One that brings the C-port link UP clears first, and the link's own Fault Report is
offered after it, at the end of the event: the model's choice (DESIGN CHOICE, log entry 32). -/
def takeAcknowledgeIndications (tag : Half) (p : List Byte) (s : State) : State :=
  takeRequest .acknowledgeIndications tag p
    (fun ev => (ev.answer .acknowledgeIndications tag .accepted).on (fun s => s.acknowledge (byteAt p 1))) s

/-- The meaning of ACKNOWLEDGE_INDICATIONS. -/
def execAcknowledgeIndications (tag : Half) (p : List Byte) (s : State) : Host.Outcome State Fault Refusal :=
  .next (takeAcknowledgeIndications tag p s)

/-- SET_REPORT_MASK (R173): the whole new mask replaces the old one. -/
def takeSetReportMask (tag : Half) (p : List Byte) (s : State) : State :=
  takeRequest .setReportMask tag p
    (fun ev => (ev.answer .setReportMask tag .accepted).on
      (fun s => { s with mask := (halfAt p 0).extractLsb' 0 11 })) s

/-- The meaning of SET_REPORT_MASK. -/
def execSetReportMask (tag : Half) (p : List Byte) (s : State) : Host.Outcome State Fault Refusal :=
  .next (takeSetReportMask tag p s)

end Sys2Proof.Machine
end

