-- ==== Sys2Proof/Machine/Raw.lean ====
section
/-! DEFINITION. Telegrams given as raw bytes: those that are no request (R166 steps 1 and 2) and the invalid telegrams of
a B-link (R33). Bytes that spell a request or a border telegram are taken as that telegram (log entry 4). -/

namespace Sys2Proof.Machine

/-- Take the request that a frame spells. -/
def takeReq (q : Req) (tag : Half) (p : List Byte) (s : State) : State :=
  match q with
  | .setRoute => takeSetRoute tag p s
  | .cancelRoute => takeCancelRoute tag p s
  | .reSignal => takeReSignal tag p s
  | .movePoint => takeMovePoint tag p s
  | .blockElement => takeBlockElement tag p s
  | .unblockElement => takeUnblockElement tag p s
  | .auxPrepare => takeAuxPrepare tag p s
  | .auxConfirm => takeAuxConfirm tag p s
  | .readElement => takeReadElement tag p s
  | .readRoute => takeReadRoute tag p s
  | .readIndications => takeReadIndications tag p s
  | .acknowledgeIndications => takeAcknowledgeIndications tag p s
  | .setReportMask => takeSetReportMask tag p s
  | .loadTableSegment => takeLoadTableSegment tag p s
  | .verifyTables => takeVerifyTables tag p s
  | .enterOperation => takeEnterOperation tag p s
  | .leaveOperation => takeLeaveOperation tag p s
  | .restart => takeRestart tag p s

/-- A well framed C-port telegram that is no request is answered UNKNOWN_KIND with its own class, kind and tag (R166
step 2). -/
def Ev.unknownKind (ev : Ev) (f : Frame) : Ev :=
  ev.on (fun s => s.send .c (.reply f.cls f.kind f.tag .unknownKind .none))

/-- UNKNOWN_KIND (R166 steps 1 and 2). -/
def takeUnknownKind (bytes : List Byte) (s : State) : State :=
  match parseFrame bytes with
  | none => ((Ev.start s).invalidTelegram .c).settle
  | some f =>
    match reqOfCodes f.cls f.kind with
    | some q => takeReq q f.tag f.payload s
    | none => (((Ev.start s).validTelegram .c).unknownKind f).settle

/-- The meaning of UNKNOWN_KIND. -/
def execUnknownKind (bytes : List Byte) (s : State) : Host.Outcome State Fault Refusal :=
  .next (takeUnknownKind bytes s)

/-- INVALID_BORDER_TELEGRAM (R33 to R35): counted invalid by the link watch, and discarded. -/
def takeInvalidBorderTelegram (l : Link) (bytes : List Byte) (s : State) : State :=
  match decodeBPort l bytes with
  | .borderStatus l p => takeBorderStatus l p s
  | .offer l p => takeOffer l p s
  | .accept l p => takeAccept l p s
  | .decline l p => takeDecline l p s
  | .withdraw l p => takeWithdraw l p s
  | .handback l p => takeHandback l p s
  | _ => ((Ev.start s).invalidTelegram l.port).settle

/-- The meaning of INVALID_BORDER_TELEGRAM. -/
def execInvalidBorderTelegram (l : Link) (bytes : List Byte) (s : State) : Host.Outcome State Fault Refusal :=
  .next (takeInvalidBorderTelegram l bytes s)

end Sys2Proof.Machine
end

