-- ==== Sys2Proof/Machine/Dispatch.lean ====
section
/-! DEFINITION. The effect of every command: one arm per row of spec/opcode_table.json. -/

namespace Sys2Proof.Machine

def exec (i : Instr) (s : State) : Host.Outcome State Fault Refusal :=
  match i with
  | .powerOnReset => Sys2Proof.Machine.execPowerOnReset s
  | .restart tag p => Sys2Proof.Machine.execRestart tag p s
  | .restartReset => Sys2Proof.Machine.execRestartReset s
  | .setRoute tag p => Sys2Proof.Machine.execSetRoute tag p s
  | .cancelRoute tag p => Sys2Proof.Machine.execCancelRoute tag p s
  | .reSignal tag p => Sys2Proof.Machine.execReSignal tag p s
  | .movePoint tag p => Sys2Proof.Machine.execMovePoint tag p s
  | .blockElement tag p => Sys2Proof.Machine.execBlockElement tag p s
  | .unblockElement tag p => Sys2Proof.Machine.execUnblockElement tag p s
  | .auxPrepare tag p => Sys2Proof.Machine.execAuxPrepare tag p s
  | .auxConfirm tag p => Sys2Proof.Machine.execAuxConfirm tag p s
  | .readElement tag p => Sys2Proof.Machine.execReadElement tag p s
  | .readRoute tag p => Sys2Proof.Machine.execReadRoute tag p s
  | .readIndications tag p => Sys2Proof.Machine.execReadIndications tag p s
  | .acknowledgeIndications tag p => Sys2Proof.Machine.execAcknowledgeIndications tag p s
  | .setReportMask tag p => Sys2Proof.Machine.execSetReportMask tag p s
  | .loadTableSegment tag p => Sys2Proof.Machine.execLoadTableSegment tag p s
  | .verifyTables tag p => Sys2Proof.Machine.execVerifyTables tag p s
  | .enterOperation tag p => Sys2Proof.Machine.execEnterOperation tag p s
  | .leaveOperation tag p => Sys2Proof.Machine.execLeaveOperation tag p s
  | .unknownKind bytes => Sys2Proof.Machine.execUnknownKind bytes s
  | .statusTelegram bytes => Sys2Proof.Machine.execStatusTelegram bytes s
  | .borderStatus l p => Sys2Proof.Machine.execBorderStatus l p s
  | .offer l p => Sys2Proof.Machine.execOffer l p s
  | .accept l p => Sys2Proof.Machine.execAccept l p s
  | .decline l p => Sys2Proof.Machine.execDecline l p s
  | .withdraw l p => Sys2Proof.Machine.execWithdraw l p s
  | .handback l p => Sys2Proof.Machine.execHandback l p s
  | .invalidBorderTelegram l bytes => Sys2Proof.Machine.execInvalidBorderTelegram l bytes s
  | .reservation => Sys2Proof.Machine.execReservation s
  | .supervisionLoss e => Sys2Proof.Machine.execSupervisionLoss e s
  | .throwTimeout e => Sys2Proof.Machine.execThrowTimeout e s
  | .linkTimerExpiry port => Sys2Proof.Machine.execLinkTimerExpiry port s
  | .releaseTimerExpiry t => Sys2Proof.Machine.execReleaseTimerExpiry t s
  | .contextTimerExpiry c => Sys2Proof.Machine.execContextTimerExpiry c s
  | .auxWindowExpiry => Sys2Proof.Machine.execAuxWindowExpiry s
  | .startupEnd => Sys2Proof.Machine.execStartupEnd s
  | .backgroundCheck => Sys2Proof.Machine.execBackgroundCheck s
  | .borderStatusSend l => Sys2Proof.Machine.execBorderStatusSend l s
  | .commandRefresh fec => Sys2Proof.Machine.execCommandRefresh fec s
  | .reportSend => Sys2Proof.Machine.execReportSend s
  | .rateTick k => Sys2Proof.Machine.execRateTick k s

end Sys2Proof.Machine
end

