-- ==== Sys2Proof/Machine/Wire.lean ====
section
/-! DEFINITION. The bytes of the telegrams the part sends (Chapter 12): frames, Replies, reports, field and border
telegrams. Fields whose encoding section 12.7 does not give are free values (log entry 10). -/

namespace Sys2Proof.Machine

/-- A number in a two-byte field: indices and counts (section 12.7). -/
def natHalf (n : Nat) : List Byte := halfBytes (BitVec.ofNat 16 n)

/-- An index, 0xFFFF for none (section 12.7). -/
def indexBytes : Option Nat → List Byte
  | some n => natHalf n
  | none => halfBytes 0xFFFF

/-- A route key as in Set Route (sections 12.5 and 12.7). -/
def RouteKey.bytes (k : RouteKey) : List Byte :=
  halfBytes k.start ++ halfBytes k.destination ++ [BitVec.ofNat 8 k.variant]

/-- A lock owner as a route key, all zero for none (section 12.7). -/
def ownerBytes : Option RouteKey → List Byte
  | some k => k.bytes
  | none => List.replicate 5 0

/-- A condition set, three bytes (section 12.7). -/
def condBytes (c : BitVec 24) : List Byte := [c.extractLsb' 16 8, c.extractLsb' 8 8, c.extractLsb' 0 8]

/-- A list: the number of items in one byte, then the items in list order (section 12.7). -/
def listBytes (items : List (List Byte)) : List Byte := BitVec.ofNat 8 items.length :: items.flatten

/-- The code of a link: 1 B1, 2 B2 (section 12.6). -/
def linkByte : Link → Byte
  | .b1 => 0x01
  | .b2 => 0x02

/-- The code of a position (sections 12.5 and 12.6). -/
def Side.code : Side → Byte
  | .left => 0x01
  | .right => 0x02

/-- An origin; its encoding is free (log entry 10). -/
def originBytes : Option Origin → List Byte
  | none => Config.openBytes .originNone 0
  | some (.control tag) => Config.openBytes .originControl tag.toNat
  | some (.neighbour .b1 ref) => Config.openBytes .originNeighbour1 ref.toNat
  | some (.neighbour .b2 ref) => Config.openBytes .originNeighbour2 ref.toNat

/-- A free field that may be absent: 0 stands for absent, n + 1 for the value n. -/
def openOption (f : OpenField) : Option Nat → List Byte
  | none => Config.openBytes f 0
  | some n => Config.openBytes f (n + 1)

/-- A release group: 1 to 8, or 0xFF for OVERLAP (section 12.6). -/
def RelGroup.code : RelGroup → Byte
  | .group g => BitVec.ofNat 8 g
  | .overlap => 0xFF

/-- A flank state (section 12.6). -/
def FlankState.code : FlankState → Byte
  | .left => 0x01
  | .right => 0x02
  | .danger => 0x03

/-- The code of a port in a Fault Report, 0xFF for none (section 12.7). -/
def portByte : Option Port → Byte
  | some p => BitVec.ofNat 8 (portBit p)
  | none => 0xFF

/-- The event code of a Route Report (section 12.7). -/
def RouteEvent.code : RouteEvent → Byte
  | .queued => 0
  | .refused _ _ => 1
  | .locked => 2
  | .cleared _ => 3
  | .reverted _ => 4
  | .aspectChanged _ => 5
  | .inUse => 6
  | .cancelling _ => 7
  | .groupReleased _ => 8
  | .released => 9
  | .cancelled _ => 10
  | .signalPassedAtDanger _ => 11
  | .unexpectedOccupancy _ _ => 12

/-- The reason, and for REFUSED the designation, that R74 lists between the origin and the marks. -/
def RouteEvent.reasonBytes : RouteEvent → List Byte
  | .refused reason d => reason.code :: halfBytes d
  | .cancelled reason => [reason.code]
  | _ => []

/-- The fields that R114 adds. -/
def RouteEvent.addedBytes : RouteEvent → List Byte
  | .cleared a | .aspectChanged a => [a.code]
  | .reverted d | .signalPassedAtDanger d => halfBytes d
  | .cancelling p => [p.code]
  | .groupReleased g => [BitVec.ofNat 8 g]
  | .unexpectedOccupancy d g => halfBytes d ++ [BitVec.ofNat 8 g]
  | _ => []

/-- An Element Report (R6). -/
def ElementReport.bytes (r : ElementReport) : List Byte :=
  halfBytes r.designation ++ [r.kind.code, r.reported, r.commanded]
    ++ (match r.lastThrow with
        | some t => Config.openBytes .lastThrow t.toNat
        | none => [])
    ++ condBytes r.conditions

/-- A Route Report (R74, R114). -/
def RouteReport.bytes (r : RouteReport) : List Byte :=
  natHalf r.route ++ r.key.bytes ++ [r.event.code] ++ originBytes r.origin ++ r.event.reasonBytes
    ++ [flagByte r.deferred, flagByte r.clamped] ++ r.event.addedBytes

/-- A transaction state, free where the report names no element. -/
def transBytes : Option TransState → List Byte
  | some t => [t.code]
  | none => Config.openBytes .transState 0

/-- A Border Report (R140). -/
def BorderReport.bytes (r : BorderReport) : List Byte :=
  halfBytes r.designation ++ [linkByte r.link]
    ++ Config.openBytes .borderPoint r.point.toNat ++ transBytes r.before ++ transBytes r.after
    ++ openOption .reference (some r.reference.toNat) ++ [r.cause.code] ++ r.reason.toList

/-- A Fault Report (section 12.7). -/
def FaultReport.bytes (r : FaultReport) : List Byte :=
  [BitVec.ofNat 8 r.cls.bit] ++ halfBytes r.designation ++ [portByte r.port] ++ indexBytes r.route ++ halfBytes r.cause

/-- The kind code of an auxiliary command (section 12.5). -/
def AuxCmd.code : AuxCmd → Byte
  | .forcedRouteRelease _ => 0x01
  | .sectionReset _ => 0x02
  | .auxPointMove _ _ => 0x03
  | .forcedBorderClear _ => 0x04

/-- The position of an AUX_POINT_MOVE, nothing for the other kinds. -/
def AuxCmd.positionBytes : AuxCmd → List Byte
  | .auxPointMove _ side => [side.code]
  | _ => []

/-- The target of an auxiliary command as designations (R160). -/
def AuxTarget.bytes : AuxTarget → List Byte
  | .route k => k.bytes
  | .elem d => halfBytes d

/-- The event code of an Aux Report (section 12.7). -/
def AuxEvent.code : AuxEvent → Byte
  | .executed _ => 0
  | .superseded => 1
  | .expired => 2
  | .discarded _ => 3

/-- The counter value of EXECUTED or the cause of DISCARDED (R160). -/
def AuxEvent.addedBytes : AuxEvent → List Byte
  | .executed c => halfBytes c
  | .discarded c => [c.code]
  | _ => []

/-- An Aux Report (R160). -/
def AuxReport.bytes (r : AuxReport) : List Byte :=
  [r.event.code, r.cmd.code] ++ r.target.bytes ++ r.cmd.positionBytes ++ halfBytes r.tag ++ r.event.addedBytes

/-- A Mode Report (R182). -/
def modeBytes (before : Option Mode) (after : Mode) (cause : ModeCause) : List Byte :=
  (match before with
   | some m => [m.code]
   | none => Config.openBytes .modeNone 0)
    ++ [after.code, cause.code]

/-- The kind of a report under class REPORT (section 12.7). -/
def Report.code : Report → Byte
  | .element _ => 0x01
  | .route _ => 0x02
  | .border _ => 0x03
  | .fault _ => 0x04
  | .aux _ => 0x05
  | .mode _ _ _ => 0x06

/-- The payload of a report. -/
def Report.bytes : Report → List Byte
  | .element r => r.bytes
  | .route r => r.bytes
  | .border r => r.bytes
  | .fault r => r.bytes
  | .aux r => r.bytes
  | .mode b a c => modeBytes b a c

/-- What Read Element adds for a BORDER element (R169, R156). -/
def BorderRead.bytes (b : BorderRead) : List Byte :=
  [linkByte b.link] ++ Config.openBytes .borderPoint b.point
    ++ [b.nbr.code, flagByte b.entryProven, flagByte b.onwardClear, flagByte b.proven, b.trans.code]
    ++ openOption .reference (b.reference.map BitVec.toNat)
    ++ (match b.lastKind with
        | some k => [k.code]
        | none => Config.openBytes .lastKindNone 0)

/-- A claimed position as its position code (section 12.5); its absence is free (log entry 10). -/
def claimedBytes : Option Side → List Byte
  | some side => [side.code]
  | none => Config.openBytes .claimedPosition 0

/-- What Read Element returns, in the order of R169. -/
def ElementRead.bytes (r : ElementRead) : List Byte :=
  halfBytes r.designation ++ [r.kind.code] ++ natHalf r.index ++ [r.reported]
    ++ (match r.lastThrow with
        | some t => Config.openBytes .lastThrow t.toNat
        | none => [])
    ++ [r.commanded] ++ ownerBytes r.lockOwner
    ++ (match r.claims with
        | some n => natHalf n
        | none => [])
    ++ (match r.claimed with
        | some c => claimedBytes c
        | none => [])
    ++ [flagByte r.blocked] ++ (r.fault.map flagByte).toList ++ (r.restore.map flagByte).toList
    ++ [flagByte r.supervised] ++ (r.watch.map flagByte).toList ++ condBytes r.conditions
    ++ (match r.border with
        | some b => b.bytes
        | none => [])

/-- A flank resolution record (section 12.7). -/
def flankBytes (x : Half × FlankState × RelGroup) : List Byte := halfBytes x.1 ++ [x.2.1.code, x.2.2.code]

/-- The awaited set and the Offer reference of a route in SETTING; BORDER_REPLY travels as 0xFFFF (section 12.7). That it
stands after the points is the model's choice (DESIGN CHOICE, log entry 38). -/
def awaitedBytes (x : List Half × Bool × Option Byte) : List Byte :=
  listBytes (x.1.map halfBytes ++ (if x.2.1 then [halfBytes 0xFFFF] else []))
    ++ (match x.2.2 with
        | some ref => openOption .reference (some ref.toNat)
        | none => [])

/-- What Read Route returns, in the order of R170. -/
def RouteRead.bytes (r : RouteRead) : List Byte :=
  natHalf r.index ++ [r.kind, r.state.code] ++ originBytes r.origin ++ openOption .owningContext r.context
    ++ [flagByte r.clearWanted, flagByte r.wasCleared, r.aspect.code]
    ++ listBytes (r.groups.map (fun g => [g.code])) ++ listBytes (r.flank.map flankBytes)
    ++ openOption .timerIndex r.timer ++ [r.purpose.code, flagByte r.deferred, flagByte r.clamped]
    ++ (match r.running with
        | some (rate, count) => Config.openBytes .timerRate rate ++ natHalf count.toNat
        | none => [])
    ++ (match r.awaited with
        | some x => awaitedBytes x
        | none => [])

/-- What Read Indications returns, in the order of R171. -/
def IndicationsRead.bytes (r : IndicationsRead) : List Byte :=
  [r.mode.code, flagByte r.tablesValid] ++ r.links.map LinkState.code
    ++ Config.openBytes .latches r.latches.toNat ++ [r.lostPorts.setWidth 8] ++ halfBytes r.auxCounter
    ++ crcBytes r.storedCrc ++ Config.openBytes .reportMask r.mask.toNat ++ natHalf r.queued ++ natHalf r.lost
    ++ [flagByte r.notice] ++ halfBytes r.seq

/-- What follows the reply code (R192). -/
def ReplyData.bytes : ReplyData → List Byte
  | .none => []
  | .routeIndex r => natHalf r
  | .crc c => crcBytes c
  | .record t p => [BitVec.ofNat 8 t] ++ natHalf p
  | .element r => r.bytes
  | .route r => r.bytes
  | .indications r => r.bytes

/-- The kind of a Reply: the request's kind plus 0x80 (R189); free where that exceeds a byte (log entry 11). -/
def replyKind (kind : Byte) : Byte := if kind.toNat < 128 then kind + 0x80 else Config.replyKindHigh kind

/-- An entry of a Border Status (section 12.3). -/
def StatusEntry.bytes (e : StatusEntry) : List Byte :=
  [BitVec.ofNat 8 e.point, e.home.code,
   (if e.entryProven then 1 else 0) ||| (if e.onwardClear then 2 else 0)]

/-- The payload of a border transaction telegram (section 12.3). -/
def BorderTx.bytes (tx : BorderTx) : List Byte :=
  [tx.point, tx.reference, tx.reason] ++ halfBytes tx.designation ++ [tx.variant]

/-- The frame of a telegram the part sends. -/
def Telegram.frame : Telegram → Frame
  | .reply cls kind tag code data => ⟨cls, replyKind kind, tag, code.code :: data.bytes⟩
  | .report seq r => ⟨0x04, r.code, seq, r.bytes⟩
  | .command fec codes => ⟨0x10, 0x02, 0, BitVec.ofNat 8 fec :: codes⟩
  | .resetOrder fec slot => ⟨0x10, 0x03, 0, [BitVec.ofNat 8 fec, BitVec.ofNat 8 slot]⟩
  | .borderStatus entries => ⟨0x20, 0x10, 0, BitVec.ofNat 8 entries.length :: (entries.map StatusEntry.bytes).flatten⟩
  | .transaction tx => ⟨0x20, tx.kind.code, 0, tx.bytes⟩

/-- The bytes of a telegram the part sends. -/
def Telegram.bytes (t : Telegram) : List Byte := t.frame.bytes

end Sys2Proof.Machine
end

