-- ==== Sys2Proof/Machine/Step.lean ====
section
/-! DEFINITION. The step: the command at the front of the queue or, where none waits, what the part's own time base and
transmission bring next (log entries 1, 2 and 12). -/

namespace Sys2Proof.Machine

/-- The events that follow at once on what has happened, the first of them first: a reservation that is possible (R80),
the reset behind a Restart (R186) and the expiries to deliver (R60, R68, R70, R71). -/
def State.consequences (s : State) : List Instr :=
  (if s.nextReservation.isSome then [.reservation] else [])
    ++ (if s.restartPending then [.restartReset] else [])
    ++ s.timers.filterMap (fun p =>
        match p.2 with
        | some h => if h.timer.expired then some (.releaseTimerExpiry p.1) else none
        | none => none)
    ++ s.ctxTimers.filterMap (fun p =>
        match p.2 with
        | some t => if t.expired then some (.contextTimerExpiry p.1) else none
        | none => none)
    ++ (if s.auxExpired then [.auxWindowExpiry] else [])

/-- The events due at the base tick that a state has just begun, in one fixed order (R12, R17, R27, R35, R58, R137, R184,
R187; log entry 2). They are listed when the tick begins, so an Enter Operation taken at its instant brings no background
check, and a Verify Tables no refresh, at that same tick: the model's choice (DESIGN CHOICE, log entries 44 and 41). -/
def State.dueEvents (s : State) : List Instr :=
  ((List.range 8).filter (fun k => s.tick % 2 ^ k == 0)).map .rateTick
    ++ (s.elems.filter (fun p => s.passes p.2.deadline)).map (fun p => .supervisionLoss p.1)
    ++ (s.elems.filter (fun p => s.passes p.2.watch)).map (fun p => .throwTimeout p.1)
    ++ ([Port.c, .f, .b1, .b2].filter (fun p => s.passes (s.link p).timer)).map .linkTimerExpiry
    ++ (if s.passes s.startupDeadline then [.startupEnd] else [])
    ++ (if s.tick % 6000 == 0 && s.mode != .maintenance then [.backgroundCheck] else [])
    ++ ([Link.b1, .b2].filter (fun l => borderTurn l s.tick)).map .borderStatusSend
    ++ (s.fecList.filter s.refreshDue).map .commandRefresh

/-- The next base tick begins: its count is one more, 3,839,999 going to 0 (R57). -/
def State.nextTick (s : State) : State := { s with tick := (s.tick + 1) % tickWrap, atTick := true }

/-- What a step does where no command waits: queue the first consequence, so that nothing due later comes before it
(R80); else queue the next event due at the base tick; else end its instant; else begin the next base tick. -/
def State.idle (s : State) : State :=
  match s.consequences, s.due with
  | c :: _, _ => { s with pending := [c] }
  | [], d :: rest => { s with pending := [d], due := rest }
  | [], [] => if s.atTick then { s with atTick := false } else { s.nextTick with due := s.nextTick.dueEvents }

/-- One step: the command at the front of the queue acts on the state with the queue's rest; on an empty queue the part
idles. -/
def step (s : State) : Host.Outcome State Fault Refusal :=
  match s.pending with
  | c :: rest => exec c { s with pending := rest }
  | [] => .next s.idle

/-- The state with the command that a word spells put at the front of its queue. -/
def State.withFetchWord (s : State) (nbits w : Nat) : State :=
  match Sys2Proof.decodeTableWord nbits w with
  | some c => { s with pending := c :: s.pending }
  | none => s

end Sys2Proof.Machine
end

