-- ==== Sys2Proof/WellFormed.lean ====
section
/-! DEFINITION. Which commands are well formed: operands inside the ranges the manual gives them, and a raw telegram
under the row that judges it so. The meanings are total: they give an ill-formed command an effect too. -/

namespace Sys2Proof

/-- A payload's length fits the two-byte length field of the frame (section 12.1). -/
def payloadFits (p : List Byte) : Bool := decide (p.length < 65536)

/-- Well-formed commands. -/
def Instr.wf : Instr → Bool
  | .powerOnReset | .restartReset | .reservation | .auxWindowExpiry | .startupEnd | .backgroundCheck
  | .reportSend => true
  | .restart _ p | .setRoute _ p | .cancelRoute _ p | .reSignal _ p | .movePoint _ p | .blockElement _ p
  | .unblockElement _ p | .auxPrepare _ p | .auxConfirm _ p | .readElement _ p | .readRoute _ p
  | .readIndications _ p | .acknowledgeIndications _ p | .setReportMask _ p | .loadTableSegment _ p
  | .verifyTables _ p | .enterOperation _ p | .leaveOperation _ p => payloadFits p
  | .unknownKind bytes => decodeCPort bytes == .unknownKind bytes
  | .statusTelegram _ => true
  | .borderStatus _ p => Machine.borderStatusFits p
  | .offer _ p | .accept _ p | .decline _ p | .withdraw _ p | .handback _ p => Machine.borderTransactionFits p
  | .invalidBorderTelegram l bytes => decodeBPort l bytes == .invalidBorderTelegram l bytes
  | .supervisionLoss e | .throwTimeout e => decide (e < 512)
  | .linkTimerExpiry _ | .borderStatusSend _ => true
  | .releaseTimerExpiry t => decide (t < 32)
  | .contextTimerExpiry c => decide (c < 4)
  | .commandRefresh fec => decide (1 ≤ fec) && decide (fec ≤ 200)
  | .rateTick k => decide (k < 8)

end Sys2Proof
end

