-- ==== Sys2Proof/Safety.lean ====
section
/-! DEFINITION. The terms in which claims are stated: what a telegram on the C-port or F-port does before its owner acts
(R34, R35), the Reply alone (R166), the reports of an event (R174), what the hand-on of an event may touch, and the
invariant of the part. -/

namespace Sys2Proof.Machine

/-! ### The link watch -/

/-- Whether the next valid telegram on a port brings its link UP: it is the third in DOWN or LOST (R34, R35). -/
def State.comesUp (s : State) (p : Port) : Bool := (s.link p).state != .up && !decide ((s.link p).count + 1 < 3)

/-- The link record of a port after one more valid telegram (R34, R35). -/
def State.heardOn (s : State) (p : Port) : LinkRec :=
  { state := if s.comesUp p then .up else (s.link p).state
    count := if (s.link p).state = .up then (s.link p).count else if s.comesUp p then 0 else (s.link p).count + 1
    timer := some (s.deadlineAfter (s.linkTimeout p)) }

/-- The state in which the owner of a telegram on the C-port or F-port acts: its link has counted the telegram. -/
def State.taken (s : State) (p : Port) : State := { s.setLink p (s.heardOn p) with events := s.events + 1 }

/-- The report of a link that comes UP at a telegram (R37). -/
def State.linkOffers (s : State) (p : Port) : List Offer :=
  if s.comesUp p then [⟨.linkUp, .fault (linkReport p .up)⟩] else []

/-! ### Reports and Replies -/

/-- A state whose event's reports are offered to the report queue in the order the free choice gives (R174). -/
def State.reporting (u : State) (offers : List Offer) : State :=
  (mergeOffers u.events offers.length 0 offers).foldl State.offer u

/-- The state with the Reply to a request sent. -/
def State.replying (u : State) (q : Req) (tag : Half) (code : ReplyCode) (data : ReplyData) : State :=
  u.send .c (.reply q.cls.code q.code tag code data)

/-- A request that is answered and changes nothing else: the link watch counts the telegram, the Reply goes out. -/
def State.answered (s : State) (q : Req) (tag : Half) (code : ReplyCode) (data : ReplyData) : State :=
  ((s.taken .c).replying q tag code data).reporting (s.linkOffers .c)

/-- Whether the mode takes a request and its length and range are right (R166 steps 3 to 5). -/
def State.admits (s : State) (q : Req) (p : List Byte) : Bool :=
  q.lengthFits p && (modeAnswer s.mode q).isNone && q.inRange p

/-- The state after an invalid telegram on a port, which is discarded: in DOWN and LOST the count returns to 0 and the
timer stops, in UP nothing changes (R34, R35). -/
def State.afterInvalid (s : State) (p : Port) : State :=
  { s.setLink p (if (s.link p).state = .up then s.link p else { s.link p with count := 0, timer := none }) with
    events := s.events + 1 }

/-- The Border Report of a transaction telegram that changes no transaction state (R140, R143, R146). -/
def State.unchangedBorder (s : State) (l : Link) (found : Option Nat) (tx : BorderTx) : BorderReport :=
  { designation := (found.map s.desig).getD 0, link := l, point := tx.point,
    before := found.map (fun e => (s.transOf e).state), after := found.map (fun e => (s.transOf e).state),
    reference := tx.reference, cause := .sent tx.kind, reason := some tx.reason }

/-- A B-link telegram that is answered with one transaction telegram and a Border Report, and changes nothing else. -/
def State.answeredBorder (s : State) (l : Link) (found : Option Nat) (tx : BorderTx) : State :=
  ((s.taken l.port).send l.port (.transaction tx)).reporting [⟨.border l, .border (s.unchangedBorder l found tx)⟩]

/-- An Offer that is answered with Decline (R143). -/
def State.declines (s : State) (l : Link) (found : Option Nat) (tx : BorderTx) (x : Reason) : State :=
  s.answeredBorder l found (plainTx .decline tx.point tx.reference x.code)

/-- The command of a border transaction telegram. -/
def BorderKind.instr (k : BorderKind) (l : Link) (p : List Byte) : Instr :=
  match k with
  | .offer => .offer l p
  | .accept => .accept l p
  | .decline => .decline l p
  | .withdraw => .withdraw l p
  | .handback => .handback l p

/-- Whether a command is a telegram of a B-link whose length fits its kind (R191). -/
def fitsLink (i : Instr) (l : Link) : Bool :=
  match i with
  | .borderStatus l' p => l' == l && borderStatusFits p
  | .offer l' p | .accept l' p | .decline l' p | .withdraw l' p | .handback l' p =>
    l' == l && borderTransactionFits p
  | _ => false

/-- The telegrams re-sent when a link comes UP: the last one of each transaction record that is not IDLE, in ascending
border point number (R153). -/
def State.resends (s : State) (l : Link) : List Sent :=
  (s.linkElems l).filterMap (fun e =>
    if (s.transOf e).state = .idle then none
    else ((s.transOf e).lastSent).map (fun tx => ⟨l.port, .transaction tx⟩))

/-- An event raises a report of a block, as whatever part of a sequence. -/
def Ev.raised (ev : Ev) (src : Src) (r : Report) : Prop := ∃ o ∈ ev.offers, o.src.base = src ∧ o.rep = r

/-! ### What the hand-on of an event may touch -/

/-- An element's record without the fields that the SE, the FR and the RM write: the lock owner, the claims, the claimed
position, a signal's commanded aspect and a border's proven flag. -/
def Elem.bare (r : Elem) : Elem :=
  { r with lockOwner := none, claims := 0, claimed := none, aspect := .danger, proven := false }

/-- The state from which an event on `s` begins. -/
def State.begun (s : State) : State := { s with events := s.events + 1 }

/-- `u` with the report queue and what R176 and R177 keep beside it as they stand in `t`. -/
def State.withReportsOf (u t : State) : State :=
  { u with queue := t.queue, latches := t.latches, lost := t.lost, notice := t.notice }

/-- `u` with the records that routes, contexts, timers and transactions own, the elements, the telegrams sent and the
reports as they stand in `t`. -/
def State.withRoutesOf (u t : State) : State :=
  { u.withReportsOf t with
    elems := t.elems, contexts := t.contexts, routes := t.routes, timers := t.timers, waitList := t.waitList,
    ctxTimers := t.ctxTimers, trans := t.trans, sent := t.sent }

/-! ### The invariant -/

/-- What every state of the part keeps: the Table Store in canonical form; the queue bounds and at most one queued Element
Report per element, told by its index (R76, R174; log entry 37); SAFE_N high in STARTUP and OPERATIONAL only (R182); the base tick count below 3,840,000
(R57); the lost-report count at most 65,535 (R176); the aux window timer beside a pending command only, in OPERATIONAL only (R157,
R161); the STARTUP deadline in STARTUP only (R184); an empty map without valid tables (R23, R179); valid tables outside
MAINTENANCE (R184, R187); every route and context FREE in MAINTENANCE (R185). -/
structure State.Inv (s : State) : Prop where
  store : Memory.wf s.store = true
  queue : s.queue.length ≤ 32
  queueOne : ∀ e, (s.queue.filter (Report.isElement e)).length ≤ 1
  requests : s.requests.length ≤ 8
  safeN : s.safeN = true ↔ s.mode = .startup ∨ s.mode = .operational
  tick : s.tick < tickWrap
  lost : s.lost ≤ 65535
  auxTimer : s.auxTimer.isSome = s.auxPending.isSome
  auxMode : s.auxPending.isSome = true → s.mode = .operational
  startup : s.startupDeadline.isSome = true ↔ s.mode = .startup
  map : s.tablesValid = false → s.dmap = []
  tables : s.mode ≠ .maintenance → s.tablesValid = true
  routes : s.mode = .maintenance → ∀ r, (s.route r).state = .free
  contexts : s.mode = .maintenance → ∀ c < 4, s.ctx c = none

/-- Every flank record of every route that names an element (R98). -/
def State.claimsOn (s : State) (e : Nat) : Nat := ((s.routes.flatMap (·.2.flank)).filter (fun f => f.elem == e)).length

/-- What the verified tables say of the BORDER elements of a route: an EXIT route ends, and an ENTRY route starts, at a
BORDER element of a link, and no path or overlap list holds one (R54, R55). -/
def State.bordersStand (s : State) (r : Nat) : Prop :=
  (s.routeKind r = some .exit → s.kind (s.rrow r).dest = some .border ∧ s.elemLink (s.rrow r).dest ≠ none) ∧
  (s.routeKind r = some .entry → s.kind (s.rrow r).start = some .border ∧ s.elemLink (s.rrow r).start ≠ none) ∧
  ∀ x ∈ pathOf s.store (s.rrow r) ++ overlapOf s.store (s.rrow r), s.kind x.target ≠ some .border

/-- A context awaits the reply to the Offer over a BORDER element. -/
def State.awaitsReply (s : State) (e c : Nat) (x : Ctx) : Prop :=
  s.ctx c = some x ∧ x.reply = true ∧ s.routeKind x.route = some .exit ∧ (s.rrow x.route).dest = e

/-- An ENTRY route from a BORDER element stands QUEUED or SETTING. -/
def State.entryWaits (s : State) (e r : Nat) : Prop :=
  s.routeKind r = some .entry ∧ (s.rrow r).start = e ∧ ((s.route r).state = .queued ∨ (s.route r).state = .setting)

/-- The records of the part that name each other. The Route Table's records stand in canonical form, a route that is not
FREE is a record in force, and a FREE one holds the FREE values (R73). The Request Queue holds exactly the QUEUED routes,
each once (R76). Contexts and SETTING routes name each other, and a FREE context's timer is stopped (R79). Every claim
count is the number of flank records that name the element (R98); a QUEUED route has none. A held release timer and its
owner name each other, and the wait list holds exactly the DEFERRED routes, each once and without a timer (R65). A
transaction is OFFER_SENT exactly while a context awaits its reply, whose destination its route holds locked (R42, R140).
At most one ENTRY route waits at a BORDER element, none while its transaction is IN_HELD, and a SETTING one holds its
start locked (R42, R77, R143). Outside OPERATIONAL no request waits, every context is FREE and no route is CLEARED (R76,
R95, R115, R120). -/
structure State.Owned (s : State) : Prop where
  routesWf : tblWf {} s.routes = true
  tables : ∀ r < s.routeCount, s.bordersStand r
  inForce : ∀ r, (s.route r).state ≠ .free → r < s.routeCount
  free : ∀ r, (s.route r).state = .free → s.route r = {}
  waiting : ∀ r, (s.route r).state = .queued ∨ (s.route r).state = .setting →
    (s.route r).timer = none ∧ (s.route r).deferred = false
  requests : ∀ r, (s.route r).state = .queued ↔ ∃ q ∈ s.requests, q.route = r
  requestsOnce : (s.requests.map (·.route)).Nodup
  context : ∀ c x, s.ctx c = some x → c < 4 ∧ (s.route x.route).state = .setting ∧ (s.route x.route).context = some c
  setting : ∀ r, (s.route r).state = .setting → ∃ c x, s.ctx c = some x ∧ x.route = r
  noContext : ∀ r, (s.route r).state ≠ .setting → (s.route r).context = none
  stopped : ∀ c, s.ctx c = none → s.ctxTimer c = none
  claims : ∀ e, (s.elem e).claims = s.claimsOn e
  noClaims : ∀ r, (s.route r).state = .queued → (s.route r).flank = []
  timer : ∀ i h, s.timerOf i = some h → (s.route h.owner).timer = some i ∧ (s.route h.owner).purpose = h.purpose
  timerHeld : ∀ r i, (s.route r).timer = some i → ∃ h, s.timerOf i = some h ∧ h.owner = r
  deferred : ∀ r, (s.route r).deferred = true ↔ ∃ w ∈ s.waitList, w.route = r
  deferredHolds : ∀ r, (s.route r).deferred = true → (s.route r).timer = none
  waitOnce : (s.waitList.map (·.route)).Nodup
  waitPurpose : ∀ w ∈ s.waitList, (s.route w.route).purpose = w.purpose
  offered : ∀ e, (s.transOf e).state = .offerSent ↔ ∃ c x, s.awaitsReply e c x
  offerLocks : ∀ c x, s.ctx c = some x → (x.reply = true → x.offerRef ≠ none) ∧
    (x.offerRef ≠ none → s.routeKind x.route = some .exit ∧ (s.elem (s.rrow x.route).dest).lockOwner = some x.route)
  entryLocks : ∀ r, s.routeKind r = some .entry → (s.route r).state = .setting →
    (s.elem (s.rrow r).start).lockOwner = some r
  entryOnce : ∀ e r q, s.entryWaits e r → s.entryWaits e q → r = q
  entryHeld : ∀ e r, (s.transOf e).state = .inHeld → ¬ s.entryWaits e r
  outside : s.mode ≠ .operational →
    s.requests = [] ∧ (∀ c, s.ctx c = none) ∧ ∀ r, (s.route r).state ≠ .cleared

end Sys2Proof.Machine
end

