-- ==== Sys2Proof/Certificates/Slice0/Obligations.lean ====
section
/-! DEFINITION. The statements for the provers. Each names the rules of spec/ it formalises in its docstring. Where an
event's hand-on (R6, R113) may go further, the statement speaks of the event `ev` whose end, `ev.settle`, is the next
state: `ev.s` holds all that the command itself did. A statement that speaks of several commands is the conjunction of
parts named `Claims.…`. -/

open Sys2Proof Sys2Proof.Machine

/-! ### The step -/

/-- A step takes the command at the front of the queue and runs it on the state with the queue's rest. -/
def Obligations.StepTakesFrontCommand : Prop :=
  ∀ (s : State) (c : Instr) (rest : List Instr), s.pending = c :: rest → step s = exec c { s with pending := rest }

/-- On an empty queue a step queues the first of the events that follow at once, a possible reservation before any other
(R80); else the next event due at the base tick; else it ends the instant of the base tick; else it begins the next base
tick, whose count is one more and wraps from 3,839,999 to 0 (R57). The model's choice: log entries 1 and 2, and for a
background check or a refresh that comes within a tick entries 44 and 41. -/
def Obligations.IdleStepMovesTimeBase : Prop :=
  ∀ s : State, s.pending = [] → s.tick < 3840000 →
    ∃ t, step s = .next t ∧
      (s.nextReservation ≠ none → t = { s with pending := [.reservation] }) ∧
      (match s.consequences, s.due with
       | c :: _, _ => t = { s with pending := [c] }
       | [], d :: rest => t = { s with pending := [d], due := rest }
       | [], [] =>
         if s.atTick then t = { s with atTick := false }
         else t = { s with
           tick := if s.tick = 3839999 then 0 else s.tick + 1, atTick := true, due := s.nextTick.dueEvents })

/-- No command touches the queue of waiting commands. The queue is the model's own. -/
def Obligations.CommandsLeaveQueue : Prop :=
  ∀ (i : Instr) (s t : State), exec i s = .next t → t.pending = s.pending

/-- The part as delivered, after reset: MAINTENANCE with SAFE_N low, nothing loaded, every record at its reset value, and
the one Mode Report with cause RESET in the queue (R3, R23, R57, R73, R76, R79, R136, R140, R157, R168, R173, R177, R178,
R182, R184, R186). The base tick count 3,839,999 before the first base tick is the model's choice: log entry 9. -/
def Obligations.ResetValues : Prop :=
  State.reset.mode = .maintenance ∧ State.reset.safeN = false ∧ State.reset.tablesValid = false ∧
  State.reset.storedCrc = 0 ∧ State.reset.auxCounter = 0 ∧ (∀ a, Memory.read State.reset.store a = 0) ∧
  (∀ e, State.reset.elem e = {} ∧ State.reset.isBlocked e = false ∧ State.reset.transOf e = {}) ∧
  (∀ r, State.reset.route r = {}) ∧ (∀ c, State.reset.ctx c = none ∧ State.reset.ctxTimer c = none) ∧
  (∀ k, State.reset.timerOf k = none) ∧ (∀ a, State.reset.lifeOf a = none) ∧
  (∀ p, State.reset.link p = { state := .down, count := 0, timer := none }) ∧
  State.reset.requests = [] ∧ State.reset.waitList = [] ∧ State.reset.auxPending = none ∧
  State.reset.auxTimer = none ∧ State.reset.latches = 0 ∧ State.reset.lostPorts = 0 ∧ State.reset.mask = 0x7FF ∧
  State.reset.seq = 0 ∧ State.reset.lost = 0 ∧ State.reset.notice = false ∧ State.reset.tick = 3839999 ∧
  (∀ l, State.reset.offerRef l = 0) ∧ State.reset.dmap = [] ∧ State.reset.startupDeadline = none ∧
  State.reset.queue = [.mode none .maintenance .reset]

/-- The state after reset meets the two invariants: queue bounds, SAFE_N, the tick, the lost count, the aux command, the
STARTUP deadline, the map and MAINTENANCE (R23, R57, R76, R157, R161, R174, R176, R178, R179, R182, R184, R185, R187),
and that the records of the part name each other (R54, R65, R73, R79, R98, R140). That queued Element Reports are told
apart by element index is the model's choice: log entry 37. -/
def Obligations.ResetMeetsInvariant : Prop := State.reset.Inv ∧ State.reset.Owned

/-- Every step keeps the invariant, from every state that meets it: the Table Store's canonical form, the bounds of the
queues, SAFE_N with the mode, the range of the tick and of the lost count, the aux command in OPERATIONAL only, the
STARTUP deadline in STARTUP only, valid tables outside MAINTENANCE, and every route and context FREE in MAINTENANCE (R23,
R57, R76, R157, R161, R174, R176, R178, R179, R182, R184, R185, R187). That queued Element Reports are told apart by
element index is the model's choice: log entry 37. -/
def Obligations.StepKeepsInvariant : Prop :=
  ∀ s t : State, s.Inv → step s = .next t → t.Inv

/-- Every step keeps what the rules say of records that name each other, from every state that meets both invariants: the
Request Queue holds exactly the QUEUED routes, each once (R76); contexts and SETTING routes name each other (R79); every
claim count is the number of flank records that name the element (R98); a transaction is OFFER_SENT exactly while a
context awaits its reply (R140); timers, the wait list and their routes name each other (R65); outside OPERATIONAL no
request waits, every context is FREE and no route is CLEARED (R76, R95, R115, R120). -/
def Obligations.StepKeepsOwnership : Prop :=
  ∀ s t : State, s.Inv → s.Owned → step s = .next t → t.Owned

/-- Outside OPERATIONAL no command makes a route CLEARED (R115, R167, R183). -/
def Obligations.NoRouteClearsOutsideOperational : Prop :=
  ∀ (i : Instr) (s t : State) (r : Nat), s.mode ≠ .operational → exec i s = .next t →
    (t.route r).state = .cleared → (s.route r).state = .cleared

/-! ### Resets -/

/-- POWER_ON_RESET: every runtime record returns to its reset value, the retained state stays, and the start-up check
chooses the mode (R178, R186). -/
def Claims.PowerOnResetRunsStartCheck : Prop :=
  ∀ s : State, ∃ t, exec .powerOnReset s = .next t ∧
    t = { pending := s.pending, store := s.store, storedCrc := s.storedCrc, blocked := s.blocked,
          auxCounter := s.auxCounter, events := s.events + 1, sent := s.sent, tablesValid := t.tablesValid,
          mode := t.mode, safeN := t.safeN, startupDeadline := t.startupDeadline, dmap := t.dmap, queue := t.queue,
          latches := t.latches } ∧
    (if s.tablesValid = true ∧ tableCrc s.store = s.storedCrc then
      t.tablesValid = true ∧ t.mode = .startup ∧ t.safeN = true ∧ t.dmap = buildMap s.store ∧ t.latches = 0 ∧
        t.startupDeadline = some (s.startupTicks % 3840000) ∧ t.queue = [.mode none .startup .reset]
     else
      t.tablesValid = false ∧ t.mode = .maintenance ∧ t.safeN = false ∧ t.dmap = [] ∧ t.startupDeadline = none ∧
        (if s.tablesValid = true then
          t.latches.getLsbD 4 = true ∧
            t.queue = [.fault { cls := .tableFault, designation := 0, port := none, route := none, cause := 3 },
                       .mode none .maintenance .reset]
         else t.latches = 0 ∧ t.queue = [.mode none .maintenance .reset]))

/-- RESTART_RESET is the same reset where a Restart was accepted, and nothing otherwise (R186; log entry 7). -/
def Claims.RestartResetIsPowerOnReset : Prop :=
  ∀ s : State,
    (s.restartPending = true → ∃ t, exec .powerOnReset s = .next t ∧ exec .restartReset s = .next t) ∧
    (s.restartPending = false → exec .restartReset s = .next s)

/-! ### The judgement of requests -/

/-- A request whose length does not fit its kind is answered BAD_LENGTH and changes nothing else (R166 step 3). -/
def Claims.BadLengthIsAnswered : Prop :=
  ∀ (q : Req) (tag : Half) (p : List Byte) (s : State), q.lengthFits p = false →
    exec (requestInstr q tag p) s = .next (s.answered q tag .badLength .none)

/-- A request that the mode does not take is answered as R167 says, and changes nothing else. -/
def Claims.ModeRefusesRequests : Prop :=
  ∀ (q : Req) (tag : Half) (p : List Byte) (s : State), q.lengthFits p = true →
    (s.mode = .startup ∧ q.cls = .operation →
      exec (requestInstr q tag p) s = .next (s.answered q tag .notReady .none)) ∧
    ((s.mode = .maintenance ∨ s.mode = .safeStop) ∧ q.cls = .operation →
      exec (requestInstr q tag p) s = .next (s.answered q tag .wrongMode .none)) ∧
    (s.mode = .maintenance ∧ q = .leaveOperation →
      exec (requestInstr q tag p) s = .next (s.answered q tag .wrongMode .none)) ∧
    ((s.mode = .startup ∨ s.mode = .operational ∧ q ≠ .leaveOperation ∨ s.mode = .safeStop ∧ q ≠ .restart) ∧
        q.cls = .maintenance →
      exec (requestInstr q tag p) s = .next (s.answered q tag .wrongMode .none))

/-- A request with a value out of its range is answered OUT_OF_RANGE, once the mode takes it (R166 step 5). -/
def Claims.OutOfRangeIsAnswered : Prop :=
  ∀ (q : Req) (tag : Half) (p : List Byte) (s : State), q.lengthFits p = true → modeAnswer s.mode q = none →
    q.inRange p = false → exec (requestInstr q tag p) s = .next (s.answered q tag .outOfRange .none)

/-- The judgement of C-port requests before their owner: length, mode, range (R166, R167). -/
def Obligations.RequestsAreJudgedInOrder : Prop :=
  Claims.BadLengthIsAnswered ∧ Claims.ModeRefusesRequests ∧ Claims.OutOfRangeIsAnswered

/-- A request for one element is answered BAD_DESIGNATION where the designation is not four decimal digits or is 0000,
and UNKNOWN_ELEMENT where the Designation Map does not hold it (R23). -/
def Claims.ElementLookupIsAnswered : Prop :=
  ∀ (q : Req) (tag : Half) (p : List Byte) (s : State),
    (q = .movePoint ∨ q = .blockElement ∨ q = .unblockElement ∨ q = .readElement) → s.admits q p = true →
    (wellFormedDesignation (halfAt p 0) = false →
      exec (requestInstr q tag p) s = .next (s.answered q tag .badDesignation .none)) ∧
    (wellFormedDesignation (halfAt p 0) = true → (∀ e, (halfAt p 0, e) ∉ s.dmap) →
      exec (requestInstr q tag p) s = .next (s.answered q tag .unknownElement .none))

/-- A request for one route is answered as the lookup by key says: the start designation first, then the destination,
then the Route Table (R46). -/
def Claims.RouteLookupIsAnswered : Prop :=
  ∀ (q : Req) (tag : Half) (p : List Byte) (s : State),
    (q = .setRoute ∨ q = .cancelRoute ∨ q = .reSignal ∨ q = .readRoute) → s.admits q p = true →
    (∀ code, s.lookup (halfAt p 0) = .error code →
      exec (requestInstr q tag p) s = .next (s.answered q tag code .none)) ∧
    (∀ a code, s.lookup (halfAt p 0) = .ok a → s.lookup (halfAt p 2) = .error code →
      exec (requestInstr q tag p) s = .next (s.answered q tag code .none)) ∧
    (∀ a b, s.lookup (halfAt p 0) = .ok a → s.lookup (halfAt p 2) = .ok b →
      (∀ r < s.routeCount, ¬ ((s.rrow r).start = a ∧ (s.rrow r).dest = b ∧
        (s.rrow r).variant = (byteAt p 4).toNat)) →
      exec (requestInstr q tag p) s = .next (s.answered q tag .unknownRoute .none))

/-- The lookups by designation and by route key (R23, R46). -/
def Obligations.LookupsAreAnswered : Prop :=
  Claims.ElementLookupIsAnswered ∧ Claims.RouteLookupIsAnswered

/-! ### STATUS requests -/

/-- READ_ELEMENT returns the element's record and changes nothing (R169). -/
def Claims.ReadElementReturnsRecord : Prop :=
  ∀ (tag : Half) (p : List Byte) (s : State) (e : Nat) (k : Kind),
    s.admits .readElement p = true → s.lookup (halfAt p 0) = .ok e → s.kind e = some k →
    exec (.readElement tag p) s = .next (s.answered .readElement tag .accepted (.element
      { designation := s.desig e, kind := k, index := e, reported := s.reportedByte e,
        lastThrow := if k = .point then some (s.elem e).lastThrow else none
        commanded := s.commandByte e
        lockOwner := (s.elem e).lockOwner.map s.routeKeyOf
        claims := if k = .point ∨ k = .signal then some (s.elem e).claims else none
        claimed := if k = .point then some (s.elem e).claimed else none
        blocked := s.isBlocked e
        fault := if k = .point then some (s.elem e).fault else none
        restore := if k = .sect then some (s.elem e).restore else none
        supervised := s.supervised e
        watch := if k = .point then some (s.elem e).watch.isSome else none
        conditions := s.condSet e
        border := if k = .border then s.borderRead e else none }))

/-- READ_ROUTE returns the route's record, its running timer and, in SETTING, its awaited set; it changes nothing (R72,
R170). The order of the awaited set, and the count 0 between a last rate tick and the expiry, are the model's choices: log
entries 38 and 26. -/
def Claims.ReadRouteReturnsRecord : Prop :=
  ∀ (tag : Half) (p : List Byte) (s : State) (r : Nat),
    s.admits .readRoute p = true → s.payloadRoute p = .ok r →
    exec (.readRoute tag p) s = .next (s.answered .readRoute tag .accepted (.route
      { index := r, kind := BitVec.ofNat 8 (s.rrow r).kindCode, state := (s.route r).state,
        origin := (s.route r).origin, context := (s.route r).context, clearWanted := (s.route r).clearWanted,
        wasCleared := (s.route r).wasCleared, aspect := (s.route r).aspect, groups := (s.route r).groups,
        flank := (s.route r).flank.map (fun f => (s.desig f.elem, f.state, f.group)),
        timer := (s.route r).timer, purpose := (s.route r).purpose, deferred := (s.route r).deferred,
        clamped := (s.route r).clamped, running := s.runningTimer r, awaited := s.awaitedRead r }))

/-- Read Element and Read Route (R72, R169, R170). -/
def Obligations.ReadsReturnRecords : Prop :=
  Claims.ReadElementReturnsRecord ∧ Claims.ReadRouteReturnsRecord

/-- READ_INDICATIONS returns the mode, the tables-valid mark, the link states, the latches, the ports of LINK_FAULT, the
aux counter, the stored CRC-32, the mask, the queue length, the lost count, the notice mark and the sequence count, and
changes none of them (R171). The C-port link is read after its watch has counted the request (log entry 32). -/
def Obligations.ReadIndicationsReturnsState : Prop :=
  ∀ (tag : Half) (p : List Byte) (s : State), s.admits .readIndications p = true →
    exec (.readIndications tag p) s = .next (s.answered .readIndications tag .accepted (.indications
      { mode := s.mode, tablesValid := s.tablesValid,
        links := [(s.heardOn .c).state, s.linkF.state, s.linkB1.state, s.linkB2.state], latches := s.latches,
        lostPorts := s.lostPorts, auxCounter := s.auxCounter, storedCrc := s.storedCrc, mask := s.mask,
        queued := s.queue.length, lost := s.lost, notice := s.notice, seq := s.seq }))

/-- ACKNOWLEDGE_INDICATIONS clears the latches of the set; with LINK_FAULT its ports, with REPORT_OVERRUN the lost count
and the notice mark (R172). That the report of a C-port link it brings UP is offered after it is the model's choice: log
entry 32. -/
def Claims.AcknowledgeClearsLatches : Prop :=
  ∀ (tag : Half) (p : List Byte) (s : State), s.admits .acknowledgeIndications p = true →
    exec (.acknowledgeIndications tag p) s = .next
      (({ (s.taken .c) with
          latches := s.latches &&& ~~~(byteAt p 1)
          lostPorts := if (byteAt p 1).getLsbD 1 then 0 else s.lostPorts
          lost := if (byteAt p 1).getLsbD 5 then 0 else s.lost
          notice := if (byteAt p 1).getLsbD 5 then false else s.notice }.replying .acknowledgeIndications tag .accepted
            .none).reporting (s.linkOffers .c))

/-- SET_REPORT_MASK replaces the whole mask; a report of its own event is judged by the mask it replaces (R173). -/
def Claims.SetReportMaskReplacesMask : Prop :=
  ∀ (tag : Half) (p : List Byte) (s : State), s.admits .setReportMask p = true →
    exec (.setReportMask tag p) s = .next
      { s.answered .setReportMask tag .accepted .none with mask := (halfAt p 0).setWidth 11 }

/-- Acknowledge Indications and Set Report Mask (R172, R173). -/
def Obligations.IndicationWrites : Prop :=
  Claims.AcknowledgeClearsLatches ∧ Claims.SetReportMaskReplacesMask

/-! ### Route requests -/

/-- SET_ROUTE on a FREE route of kind MAIN, SHUNT or EXIT, with a place in the Request Queue: the route becomes QUEUED
with origin CONTROL and the tag, its request joins the tail, and the Reply QUEUED carries the route index (R75). -/
def Obligations.SetRouteQueuesRequest : Prop :=
  ∀ (tag : Half) (p : List Byte) (s : State) (r : Nat),
    s.admits .setRoute p = true → s.payloadRoute p = .ok r → s.routeKind r ≠ some .entry →
    (s.route r).state = .free → s.requests.length < 8 →
    exec (.setRoute tag p) s = .next
      (((({ (s.taken .c) with requests := s.requests ++ [⟨r, .control tag⟩] } : State).setRoute r
          { s.route r with state := .queued, origin := some (.control tag) }).replying .setRoute tag .queued
            (.routeIndex r)).reporting
        (s.linkOffers .c ++ [⟨.route, .route
          { route := r, key := s.routeKeyOf r, event := .queued, origin := some (.control tag),
            deferred := (s.route r).deferred, clamped := (s.route r).clamped }⟩]))

/-- SET_ROUTE is answered WRONG_KIND for an ENTRY route, ROUTE_ACTIVE for a route that is not FREE and QUEUE_FULL where
the Request Queue holds eight records, in this order, and changes nothing else (R75). -/
def Claims.SetRouteRefusals : Prop :=
  ∀ (tag : Half) (p : List Byte) (s : State) (r : Nat),
    s.admits .setRoute p = true → s.payloadRoute p = .ok r →
    (s.routeKind r = some .entry →
      exec (.setRoute tag p) s = .next (s.answered .setRoute tag .wrongKind .none)) ∧
    (s.routeKind r ≠ some .entry → (s.route r).state ≠ .free →
      exec (.setRoute tag p) s = .next (s.answered .setRoute tag .routeActive .none)) ∧
    (s.routeKind r ≠ some .entry → (s.route r).state = .free → 8 ≤ s.requests.length →
      exec (.setRoute tag p) s = .next (s.answered .setRoute tag .queueFull .none))

/-- CANCEL_ROUTE on a FREE route is answered NOT_LOCKED, and on one in CANCELLING, IN_USE or OVERLAP_HELD
NOT_CANCELLABLE; neither changes anything else (R91). -/
def Claims.CancelRouteRefusals : Prop :=
  ∀ (tag : Half) (p : List Byte) (s : State) (r : Nat),
    s.admits .cancelRoute p = true → s.payloadRoute p = .ok r →
    ((s.route r).state = .free →
      exec (.cancelRoute tag p) s = .next (s.answered .cancelRoute tag .notLocked .none)) ∧
    ((s.route r).state = .cancelling ∨ (s.route r).state = .inUse ∨ (s.route r).state = .overlapHeld →
      exec (.cancelRoute tag p) s = .next (s.answered .cancelRoute tag .notCancellable .none))

/-- CANCEL_ROUTE on a QUEUED route: the request leaves its place, the route becomes FREE with its record reset, and the
Route Report CANCELLED is raised; a request of a neighbour is answered Decline, reason CANCELLED (R91, R92). That the
Reply stands before the Decline among the telegrams sent is the model's choice: log entry 8. -/
def Obligations.CancelQueuedRequest : Prop :=
  ∀ (tag : Half) (p : List Byte) (s : State) (r : Nat),
    s.admits .cancelRoute p = true → s.payloadRoute p = .ok r → (s.route r).state = .queued →
    let u := (({ (s.taken .c) with requests := s.requests.filter (fun q => q.route != r) } : State).setRoute r {}).replying
      .cancelRoute tag .accepted .none
    let os : List Offer := s.linkOffers .c ++ [⟨.route, .route
      { route := r, key := s.routeKeyOf r, event := .cancelled .cancelled, origin := (s.route r).origin,
        deferred := (s.route r).deferred, clamped := (s.route r).clamped }⟩]
    let e := (s.rrow r).start
    exec (.cancelRoute tag p) s = .next
      (match (s.route r).origin with
       | some (.neighbour l ref) =>
         let tx := plainTx .decline (s.pointByte e) ref 0x0A
         (u.send l.port (.transaction tx)).reporting
           (os ++ [⟨.border l, .border (s.unchangedBorder l (some e) tx)⟩])
       | _ => u.reporting os)

/-- CANCEL_ROUTE on a SETTING route: its context fails with CANCELLED, the route becomes FREE, the context is FREE and its
timer stopped, no element stays locked by the route, its claims are dropped, and its Offer is withdrawn where the
transaction is OFFER_SENT or HELD_OUT (R90, R91, R93). That the Reply stands first among the telegrams sent is the model's
choice: log entry 8. -/
def Obligations.CancelSettingRoute : Prop :=
  ∀ (tag : Half) (p : List Byte) (s : State) (r c : Nat),
    s.admits .cancelRoute p = true → s.payloadRoute p = .ok r → (s.route r).state = .setting → s.ctxOf r = some c →
    ∃ ev : Ev, exec (.cancelRoute tag p) s = .next ev.settle ∧ ev.before = s ∧ ev.s.route r = {} ∧ ev.s.ctx c = none ∧
      ev.s.ctxTimer c = none ∧ (∀ e, (ev.s.elem e).lockOwner ≠ some r) ∧
      (∀ e, (ev.s.elem e).claims = (s.elem e).claims - ((s.route r).flank.filter (fun f => f.elem == e)).length) ∧
      (∀ x ref l, s.ctx c = some x → x.offerRef = some ref → s.elemLink (s.rrow r).dest = some l →
        (s.transOf (s.rrow r).dest).state = .offerSent ∨ (s.transOf (s.rrow r).dest).state = .heldOut →
        ev.s.transOf (s.rrow r).dest = {} ∧
        s.sent ++ [⟨.c, .reply 0x01 0x02 tag .accepted .none⟩,
                   ⟨l.port, .transaction (plainTx .withdraw (s.pointByte (s.rrow r).dest) ref 0x0A)⟩] <+: ev.s.sent) ∧
      ev.raised .route (.route
        { route := r, key := s.routeKeyOf r, event := .refused .cancelled (s.desig (s.rrow r).start),
          origin := (s.route r).origin, deferred := (s.route r).deferred, clamped := (s.route r).clamped }) ∧
      s.sent ++ [⟨.c, .reply 0x01 0x02 tag .accepted .none⟩] <+: ev.s.sent ∧
      (∀ q, q ≠ r → ev.s.route q = s.route q) ∧ (∀ e, (ev.s.elem e).bare = (s.elem e).bare) ∧
      ev.s = (s.taken .c).withRoutesOf ev.s ∧ ev.settle.ctx c = none ∧ ev.settle.ctxTimer c = none ∧
      (∀ e, (ev.settle.elem e).lockOwner ≠ some r)

/-- The border side of the full release of route r: an EXIT route in HELD_OUT sends, after the telegrams `sent`, Handback
where a group of it was OCCUPIED_SEEN or RELEASED and Withdraw CANCELLED where none was, and its transaction becomes IDLE
with a Border Report; any other route sends nothing and leaves every transaction (R134, R148, R150, R151). -/
def Claims.borderSideEnds (s : State) (r : Nat) (sent : List Sent) (ev : Ev) : Prop :=
  let e := (s.rrow r).dest
  let entered := (s.route r).groups.any GroupState.entered
  (∀ l ref, s.routeKind r = some .exit → s.elemLink e = some l → (s.transOf e).state = .heldOut →
    (s.transOf e).reference = some ref →
    let tx := if entered then plainTx .handback (s.pointByte e) ref 0 else plainTx .withdraw (s.pointByte e) ref 0x0A
    ev.s.transOf e = {} ∧ (∀ k, k ≠ e → ev.s.transOf k = s.transOf k) ∧
      ev.s.sent = sent ++ [⟨l.port, .transaction tx⟩] ∧
      ev.raised (.border l) (.border
        { designation := s.desig e, link := l, point := s.pointByte e, before := some .heldOut, after := some .idle,
          reference := ref, cause := .sent (if entered then .handback else .withdraw),
          reason := if entered then none else some 0x0A })) ∧
  (s.routeKind r ≠ some .exit ∨ (s.transOf e).state ≠ .heldOut → ev.s.trans = s.trans ∧ ev.s.sent = sent)

/-- CANCEL_ROUTE on a LOCKED or CLEARED route: the start signal is commanded DANGER, or the proven flag cleared, and the
clear-wanted mark cleared. An ENTRY route is released in full; a route that was CLEARED while its approach is occupied
waits in CANCELLING for the APPROACH timer (released at once where that time is 0); any other is released in full once
its start signal proves DANGER, and waits for that in CANCELLING otherwise. An EXIT route released from HELD_OUT ends its
transaction by Handback or Withdraw (R91, R124, R134, R148, R150). That the Reply stands first among the telegrams sent is
the model's choice: log entry 8. -/
def Obligations.CancelLockedRoute : Prop :=
  ∀ (tag : Half) (p : List Byte) (s : State) (r : Nat),
    s.admits .cancelRoute p = true → s.payloadRoute p = .ok r →
    ((s.route r).state = .locked ∨ (s.route r).state = .cleared) →
    ∃ ev : Ev, exec (.cancelRoute tag p) s = .next ev.settle ∧ ev.before = s ∧ r ∈ ev.reached ∧
      s.sent ++ [⟨.c, .reply 0x01 0x02 tag .accepted .none⟩] <+: ev.s.sent ∧
      (ev.s.route r).clearWanted = false ∧
      (if s.isEntry r then (ev.s.elem (s.rrow r).start).proven = false
       else (ev.s.elem (s.rrow r).start).aspect = .danger) ∧
      (if s.isEntry r then ev.s.route r = {}
       else if (s.route r).wasCleared = true ∧ s.approachTest r = false then
         if s.requiredMs r .approach = 0 then ev.s.route r = {}
         else (ev.s.route r).state = .cancelling ∧ (ev.s.route r).purpose = .approach
       else if s.holds (s.rrow r).start .dangerProven then ev.s.route r = {}
       else (ev.s.route r).state = .cancelling ∧ (ev.s.route r).purpose = (s.route r).purpose) ∧
      (let sent := s.sent ++ [⟨.c, .reply 0x01 0x02 tag .accepted .none⟩]
       (ev.s.route r = {} → Claims.borderSideEnds s r sent ev) ∧
       (ev.s.route r ≠ {} → ev.s.trans = s.trans ∧ ev.s.sent = sent)) ∧
      (∀ e, (ev.s.elem e).bare = (s.elem e).bare) ∧ ev.s = (s.taken .c).withRoutesOf ev.s

/-- RE_SIGNAL is answered NOT_LOCKED unless the route is LOCKED (R78). -/
def Claims.ReSignalRefused : Prop :=
  ∀ (tag : Half) (p : List Byte) (s : State) (r : Nat),
    s.admits .reSignal p = true → s.payloadRoute p = .ok r → (s.route r).state ≠ .locked →
    exec (.reSignal tag p) s = .next (s.answered .reSignal tag .notLocked .none)

/-- The refusals of Set Route, Cancel Route and Re-signal by the block that owns the route (R75, R78, R91). -/
def Obligations.RouteRequestRefusals : Prop :=
  Claims.SetRouteRefusals ∧ Claims.CancelRouteRefusals ∧ Claims.ReSignalRefused

/-- RE_SIGNAL on a LOCKED route sets its clear-wanted mark, and the route becomes CLEARED at the same event where its
clear conditions hold: its start signal then shows another aspect than DANGER, or its proven flag is set. No other
route's state changes (R78, R113, R116). That the Reply stands first among the telegrams sent is the model's choice: log
entry 8. -/
def Obligations.ReSignalClearsRoute : Prop :=
  ∀ (tag : Half) (p : List Byte) (s : State) (r : Nat),
    s.admits .reSignal p = true → s.payloadRoute p = .ok r → (s.route r).state = .locked →
    ∃ t, exec (.reSignal tag p) s = .next t ∧ (t.route r).clearWanted = true ∧
      (t.route r).state = (if s.firstFailing r = none then .cleared else .locked) ∧
      (t.route r).wasCleared = ((s.route r).wasCleared || (s.firstFailing r).isNone) ∧
      (s.firstFailing r = none →
        if s.isEntry r then (t.elem (s.rrow r).start).proven = true
        else (t.elem (s.rrow r).start).aspect ≠ .danger) ∧
      s.sent ++ [⟨.c, .reply 0x01 0x03 tag .accepted .none⟩] <+: t.sent ∧
      (∀ q, q ≠ r → (t.route q).state = (s.route q).state) ∧ (∀ e, (t.elem e).bare = (s.elem e).bare) ∧
      (∀ e, (t.elem e).lockOwner = (s.elem e).lockOwner ∧ (t.elem e).claims = (s.elem e).claims) ∧
      t = { (s.taken .c).withReportsOf t with elems := t.elems, routes := t.routes, sent := t.sent }

/-! ### Requests on single elements -/

/-- MOVE_POINT is answered WRONG_KIND for an element that is no POINT, LOCKED where it has a lock owner or a flank claim,
BLOCKED where it is blocked, and OCCUPIED where its point section does not hold VACANT, in this order (R20). -/
def Claims.MovePointRefusals : Prop :=
  ∀ (tag : Half) (p : List Byte) (s : State) (e : Nat),
    s.admits .movePoint p = true → s.lookup (halfAt p 0) = .ok e →
    let answer (code : ReplyCode) := exec (.movePoint tag p) s = .next (s.answered .movePoint tag code .none)
    let held := (s.elem e).lockOwner ≠ none ∨ (s.elem e).claims ≠ 0
    (s.kind e ≠ some .point → answer .wrongKind) ∧
    (s.kind e = some .point → held → answer .locked) ∧
    (s.kind e = some .point → ¬ held → s.isBlocked e = true → answer .blocked) ∧
    (s.kind e = some .point → ¬ held → s.isBlocked e = false → s.holds (s.erow e).sect .vacant = false →
      answer .occupied)

/-- MOVE_POINT, its tests passed, writes the commanded state; the throw watch starts, or goes idle where the point
reports that end position; a changed command goes down at once in a Command Telegram with the commanded states of the
four slots of its FEC (R11, R15, R20). That the Reply stands first among the telegrams sent is the model's choice: log
entry 8. -/
def Claims.MovePointCommandsPoint : Prop :=
  ∀ (tag : Half) (p : List Byte) (s : State) (e : Nat) (side : Side),
    s.admits .movePoint p = true → s.lookup (halfAt p 0) = .ok e → sideOfCode (byteAt p 2).toNat = some side →
    s.kind e = some .point → (s.elem e).lockOwner = none → (s.elem e).claims = 0 → s.isBlocked e = false →
    s.holds (s.erow e).sect .vacant = true →
    ∃ t, exec (.movePoint tag p) s = .next t ∧
      (t.elem e).bare = { (s.elem e).bare with
        pointCmd := side.cmd
        watch := if (s.elem e).reported = side.reported then none
                 else some (s.deadlineAfter (10 * (s.erow e).throwLimit)) } ∧
      s.sent ++ [⟨.c, .reply 0x01 0x04 tag .accepted .none⟩] <+: t.sent ∧
      ((s.elem e).pointCmd ≠ side.cmd →
        ⟨.f, .command (s.erow e).addr (t.commandCodes (s.erow e).addr)⟩ ∈ t.sent.drop s.sent.length) ∧
      (∀ k, k ≠ e → (t.elem k).bare = (s.elem k).bare) ∧ t = (s.taken .c).withRoutesOf t

/-- Move Point (R11, R15, R20). -/
def Obligations.MovePoint : Prop :=
  Claims.MovePointRefusals ∧ Claims.MovePointCommandsPoint

/-- BLOCK_ELEMENT sets the blocked mark of its element, whatever its kind, and UNBLOCK_ELEMENT clears it; no other mark
changes (R21, R22). That the Reply stands first among the telegrams sent is the model's choice: log entry 8. -/
def Obligations.BlockAndUnblockElement : Prop :=
  ∀ (tag : Half) (p : List Byte) (s : State) (e : Nat), s.lookup (halfAt p 0) = .ok e →
    (s.admits .blockElement p = true → ∃ t, exec (.blockElement tag p) s = .next t ∧
      (∀ k, t.isBlocked k = if k = e then true else s.isBlocked k) ∧
      s.sent ++ [⟨.c, .reply 0x01 0x05 tag .accepted .none⟩] <+: t.sent ∧
      (∀ k, (t.elem k).bare = (s.elem k).bare) ∧
      t = { (s.taken .c).withRoutesOf t with blocked := t.blocked }) ∧
    (s.admits .unblockElement p = true → ∃ t, exec (.unblockElement tag p) s = .next t ∧
      (∀ k, t.isBlocked k = if k = e then false else s.isBlocked k) ∧
      s.sent ++ [⟨.c, .reply 0x01 0x06 tag .accepted .none⟩] <+: t.sent ∧
      (∀ k, (t.elem k).bare = (s.elem k).bare) ∧
      t = { (s.taken .c).withRoutesOf t with blocked := t.blocked })

/-! ### Auxiliary commands -/

/-- AUX_PREPARE whose target fails its test is answered as R159 says, and leaves what is pending (R158). -/
def Claims.AuxPrepareRefused : Prop :=
  ∀ (tag : Half) (p : List Byte) (s : State) (cmd : AuxCmd) (code : ReplyCode),
    s.admits .auxPrepare p = true → s.payloadAux p = .ok cmd → s.auxRefusal cmd = some code →
    exec (.auxPrepare tag p) s = .next (s.answered .auxPrepare tag code .none)

/-- AUX_PREPARE makes its command pending with its tag and starts the window timer for the aux window time; a pending
command is replaced, with the Reply AUX_REPLACED and an Aux Report SUPERSEDED under its own tag (R71, R158). -/
def Obligations.AuxPrepareMakesPending : Prop :=
  ∀ (tag : Half) (p : List Byte) (s : State) (cmd : AuxCmd),
    s.admits .auxPrepare p = true → s.payloadAux p = .ok cmd → s.auxRefusal cmd = none →
    let u : State := { (s.taken .c) with
      auxPending := some { cmd := cmd, tag := tag }
      auxTimer := some (s.startTimer (timerSetting (1000 * siteAuxTime s.store))) }
    exec (.auxPrepare tag p) s = .next
      (match s.auxPending with
       | none => (u.replying .auxPrepare tag .accepted .none).reporting (s.linkOffers .c)
       | some old => (u.replying .auxPrepare tag .auxReplaced .none).reporting (s.linkOffers .c ++ [⟨.aux, .aux
           { event := .superseded, cmd := old.cmd, target := s.auxTarget old.cmd, tag := old.tag }⟩]))

/-- AUX_CONFIRM is answered AUX_SEQUENCE where none is pending; where the pending command is another one, AUX_SEQUENCE
and the pending one is discarded with cause SEQUENCE; where the target no longer passes its test, that test's code and
the pending one is discarded with cause NOT_APPLICABLE (R160, R161). -/
def Claims.AuxConfirmRefusals : Prop :=
  ∀ (tag : Half) (p : List Byte) (s : State) (cmd : AuxCmd),
    s.admits .auxConfirm p = true → s.payloadAux p = .ok cmd →
    let discard (old : AuxPending) (code : ReplyCode) (cause : DiscardCause) :=
      exec (.auxConfirm tag p) s = .next
        ((({ (s.taken .c) with auxPending := none, auxTimer := none } : State).replying .auxConfirm tag code .none).reporting
          (s.linkOffers .c ++ [⟨.aux, .aux
            { event := .discarded cause, cmd := old.cmd, target := s.auxTarget old.cmd, tag := old.tag }⟩]))
    (s.auxPending = none → exec (.auxConfirm tag p) s = .next (s.answered .auxConfirm tag .auxSequence .none)) ∧
    (∀ old, s.auxPending = some old → old.cmd ≠ cmd → discard old .auxSequence .sequence) ∧
    (∀ old code, s.auxPending = some old → old.cmd = cmd → s.auxRefusal cmd = some code →
      discard old code .notApplicable)

/-- AUX_PREPARE and AUX_CONFIRM whose target is not found are answered as the lookup says, and leave what is pending: by
route key for FORCED_ROUTE_RELEASE, the start first, then the destination, then the Route Table; by designation for the
other kinds (R23, R46, R158 step 1, R160). -/
def Claims.AuxLookupIsAnswered : Prop :=
  ∀ (q : Req) (tag : Half) (p : List Byte) (s : State), (q = .auxPrepare ∨ q = .auxConfirm) → s.admits q p = true →
    let answered (code : ReplyCode) := exec (requestInstr q tag p) s = .next (s.answered q tag code .none)
    (byteAt p 0 = 0x01 →
      (∀ code, s.lookup (halfAt p 1) = .error code → answered code) ∧
      (∀ a code, s.lookup (halfAt p 1) = .ok a → s.lookup (halfAt p 3) = .error code → answered code) ∧
      (∀ a b, s.lookup (halfAt p 1) = .ok a → s.lookup (halfAt p 3) = .ok b →
        (∀ r < s.routeCount, ¬ ((s.rrow r).start = a ∧ (s.rrow r).dest = b ∧
          (s.rrow r).variant = (byteAt p 5).toNat)) → answered .unknownRoute)) ∧
    (byteAt p 0 ≠ 0x01 → ∀ code, s.lookup (halfAt p 1) = .error code → answered code)

/-- The refusals of Aux Prepare and Aux Confirm (R158 to R161). -/
def Obligations.AuxRequestRefusals : Prop :=
  Claims.AuxLookupIsAnswered ∧ Claims.AuxPrepareRefused ∧ Claims.AuxConfirmRefusals

/-- AUX_CONFIRM of the pending command executes it: the pending record and its timer are cleared, the aux counter rises by
one, AUX is latched and the Aux Report EXECUTED carries the new count and the tag of the Prepare. A SECTION_RESET sends
one Reset Order and sets the restore-pending mark; an AUX_POINT_MOVE commands the point; a FORCED_ROUTE_RELEASE commands
DANGER, or clears the proven flag, and puts the route in CANCELLING with the FORCED timer (or releases it where that time
is 0); a FORCED_BORDER_CLEAR makes the transaction IDLE and the routes tied to the element FREE (R135, R154, R160, R162,
R163, R164). The number that dates the Reset Order is the model's (log entry 21), and so are that the Reply stands first
among the telegrams sent (log entry 8) and that of two ENTRY routes under one reference the lower index is tied (log entry
43). -/
def Obligations.AuxConfirmExecutes : Prop :=
  ∀ (tag : Half) (p : List Byte) (s : State) (old : AuxPending),
    s.admits .auxConfirm p = true → s.payloadAux p = .ok old.cmd → s.auxPending = some old →
    s.auxRefusal old.cmd = none →
    ∃ ev : Ev, exec (.auxConfirm tag p) s = .next ev.settle ∧ ev.before = s ∧
      ev.s.auxPending = none ∧ ev.s.auxTimer = none ∧ ev.s.auxCounter = s.auxCounter + 1 ∧
      ev.s.latches.getLsbD 7 = true ∧
      ev.raised .aux (.aux
        { event := .executed (s.auxCounter + 1), cmd := old.cmd, target := s.auxTarget old.cmd, tag := old.tag }) ∧
      s.sent ++ [⟨.c, .reply 0x01 0x08 tag .accepted .none⟩] <+: ev.s.sent ∧
      (match old.cmd with
       | .forcedRouteRelease r =>
         (if s.isEntry r then (ev.s.elem (s.rrow r).start).proven = false
          else (ev.s.elem (s.rrow r).start).aspect = .danger) ∧
         (if s.requiredMs r .forced = 0 then ev.s.route r = {}
          else (ev.s.route r).state = .cancelling ∧ (ev.s.route r).purpose = .forced ∧
            (ev.s.route r).clearWanted = false ∧ (ev.s.route r).aspect = .danger)
       | .sectionReset e =>
         ev.s.elem e = { s.elem e with restore := true, restoreSet := some (s.events + 1) } ∧
           ev.s.sent = s.sent ++ [⟨.c, .reply 0x01 0x08 tag .accepted .none⟩,
                                  ⟨.f, .resetOrder (s.erow e).addr (s.erow e).slot⟩]
       | .auxPointMove e side =>
         ev.s.elem e = { s.elem e with
           pointCmd := side.cmd
           watch := if (s.elem e).reported = side.reported then none
                    else some (s.deadlineAfter (10 * (s.erow e).throwLimit)) }
       | .forcedBorderClear e =>
         ev.s.transOf e = {} ∧
         (∀ r, s.routeKind r = some .exit → (s.rrow r).dest = e → ((s.route r).state = .setting → s.ctxOf r ≠ none) →
           (ev.s.route r).state = .free) ∧
         (∀ l ref r, s.elemLink e = some l → (s.transOf e).reference = some ref →
           s.entryUnder l e ref (fun _ => true) = some r → ((s.route r).state = .setting → s.ctxOf r ≠ none) →
           (ev.s.route r).state = .free)) ∧
      (ev.s.store = s.store ∧ ev.s.mode = s.mode ∧ ev.s.blocked = s.blocked ∧ ev.s.life = s.life ∧
        ev.s.linkC = s.heardOn .c ∧ ev.s.mask = s.mask)

/-- AUX_WINDOW_EXPIRY clears the pending command with an Aux Report EXPIRED once the window timer has expired, and does
nothing otherwise (R71, R161). That it does nothing otherwise is the model's choice: log entry 3. -/
def Obligations.AuxWindowExpiryClearsPending : Prop :=
  ∀ s : State,
    (s.auxExpired = false → exec .auxWindowExpiry s = .next s) ∧
    (s.auxExpired = true → exec .auxWindowExpiry s = .next
      (({ s.begun with auxPending := none, auxTimer := none } : State).reporting
        (match s.auxPending with
         | some old => [⟨.aux, .aux
             { event := .expired, cmd := old.cmd, target := s.auxTarget old.cmd, tag := old.tag }⟩]
         | none => [])))

/-! ### MAINTENANCE requests -/

/-- LOAD_TABLE_SEGMENT writes the records of its payload from their position on and no other byte of the Table Store, and
clears the tables-valid mark, which where it was set empties the Designation Map and drops the records of the elements,
the life counts and the transactions (R179). Every route is FREE in MAINTENANCE (R185). -/
def Obligations.LoadSegmentWritesRecords : Prop :=
  ∀ (tag : Half) (p : List Byte) (s : State),
    s.admits .loadTableSegment p = true → (∀ r, (s.route r).state = .free) →
    let first := tableBase (byteAt p 0) + recordSize (byteAt p 0) * (halfAt p 1).toNat
    ∃ t, exec (.loadTableSegment tag p) s = .next t ∧
      (∀ a, Memory.read t.store a =
        if first ≤ a ∧ a < first + (p.length - 3) then byteAt p (3 + (a - first)) else Memory.read s.store a) ∧
      (Memory.wf s.store = true → Memory.wf t.store = true) ∧
      t = { (s.taken .c).withReportsOf t with
        store := t.store
        tablesValid := false
        dmap := if s.tablesValid then [] else s.dmap
        elems := if s.tablesValid then [] else s.elems
        life := if s.tablesValid then [] else s.life
        trans := if s.tablesValid then [] else s.trans
        sent := s.sent ++ [⟨.c, .reply 0x03 0x01 tag .accepted .none⟩] }

/-- VERIFY_TABLES with another CRC-32 than the computed one is answered TABLE_MISMATCH with the computed one; with tables
that fail a check, TABLE_INVALID with the record at fault. Both clear the tables-valid mark and leave the Table Store,
the blocked set and the aux counter (R180). -/
def Obligations.VerifyTablesFails : Prop :=
  ∀ (tag : Half) (p : List Byte) (s : State),
    s.admits .verifyTables p = true → (∀ r, (s.route r).state = .free) →
    let given := word32 (byteAt p 0) (byteAt p 1) (byteAt p 2) (byteAt p 3)
    let failed (code : ReplyCode) (data : ReplyData) : State := { (s.taken .c) with
      tablesValid := false
      dmap := if s.tablesValid then [] else s.dmap
      elems := if s.tablesValid then [] else s.elems
      life := if s.tablesValid then [] else s.life
      trans := if s.tablesValid then [] else s.trans
      sent := s.sent ++ [⟨.c, .reply 0x03 0x02 tag code data⟩] }
    (tableCrc s.store ≠ given → exec (.verifyTables tag p) s = .next
      ((failed .tableMismatch (.crc (tableCrc s.store))).reporting (s.linkOffers .c))) ∧
    (∀ table pos, tableCrc s.store = given → checkTables s.store = some (table, pos) →
      exec (.verifyTables tag p) s = .next
        ((failed .tableInvalid (.record table pos)).reporting (s.linkOffers .c)))

/-- VERIFY_TABLES, its checks passed: the Route Table is sorted, no byte outside its records changes, the Designation Map
is built, the stored CRC-32 is that of the sorted tables and travels in the Reply, the mark is set, and the blocked set
and the aux counter are cleared (R181). Every route and context is FREE in MAINTENANCE (R185). -/
def Obligations.VerifyTablesSucceeds : Prop :=
  ∀ (tag : Half) (p : List Byte) (s : State),
    s.admits .verifyTables p = true → (∀ r, (s.route r).state = .free) → (∀ c, c < 4 → s.ctx c = none) →
    tableCrc s.store = word32 (byteAt p 0) (byteAt p 1) (byteAt p 2) (byteAt p 3) → checkTables s.store = none →
    ∃ t, exec (.verifyTables tag p) s = .next t ∧
      (∀ a, (a < routeBase ∨ routeBase + 26 * siteRoutes s.store ≤ a) →
        Memory.read t.store a = Memory.read s.store a) ∧
      (Memory.wf s.store = true → Memory.wf t.store = true) ∧
      t = { (s.taken .c).withReportsOf t with
        store := sortRoutes s.store
        storedCrc := tableCrc (sortRoutes s.store)
        dmap := buildMap (sortRoutes s.store)
        tablesValid := true
        blocked := []
        auxCounter := 0
        trans := []
        elems := if s.tablesValid then [] else s.elems
        life := if s.tablesValid then [] else s.life
        sent := s.sent ++ [⟨.c, .reply 0x03 0x02 tag .accepted (.crc (tableCrc (sortRoutes s.store)))⟩] }

/-- Sorted tables hold the routes in ascending order of start index, destination index and variant, and hold exactly the
records that were loaded (R40, R181 step 1). -/
def Obligations.SortedRoutesAscend : Prop :=
  ∀ m : Memory, checkTables m = none →
    (∀ r, r + 1 < siteRoutes m → keyLt (routeRow (sortRoutes m) r) (routeRow (sortRoutes m) (r + 1)) = true) ∧
    (∀ r, r < siteRoutes m → ∃ p, p < siteRoutes m ∧ routeRow (sortRoutes m) r = routeRow m p) ∧
    (∀ p, p < siteRoutes m → ∃ r, r < siteRoutes m ∧ routeRow (sortRoutes m) r = routeRow m p)

/-- ENTER_OPERATION with valid tables makes the mode STARTUP, with SAFE_N high, a Mode Report and the STARTUP deadline at
twice the longest supervision interval; without them it is answered TABLE_INVALID (R182, R184). -/
def Claims.EnterOperationStartsUp : Prop :=
  ∀ (tag : Half) (p : List Byte) (s : State), s.admits .enterOperation p = true →
    (s.tablesValid = true → exec (.enterOperation tag p) s = .next
      ((({ (s.taken .c) with
            mode := .startup
            safeN := true
            startupDeadline := some (s.deadlineAfter s.startupTicks) } : State).replying .enterOperation tag .accepted
              .none).reporting
        (s.linkOffers .c ++ [⟨.route, .mode (some .maintenance) .startup .enterOperation⟩]))) ∧
    (s.tablesValid = false → exec (.enterOperation tag p) s = .next
      (s.answered .enterOperation tag .tableInvalid (.record 0 0)))

/-- LEAVE_OPERATION is answered BUSY_ROUTES while a route or a context is not FREE or a transaction is not IDLE (R185). -/
def Claims.LeaveOperationRefused : Prop :=
  ∀ (tag : Half) (p : List Byte) (s : State), s.admits .leaveOperation p = true →
    ((∃ r, (s.route r).state ≠ .free) ∨ (∃ c, c < 4 ∧ s.ctx c ≠ none) ∨
      (∃ e, e < s.elemCount ∧ (s.transOf e).state ≠ .idle)) →
    exec (.leaveOperation tag p) s = .next (s.answered .leaveOperation tag .busyRoutes .none)

/-- LEAVE_OPERATION with all of them at rest makes the mode MAINTENANCE with SAFE_N low, discards a pending auxiliary
command and commands HOLD to every point commanded LEFT or RIGHT (R161, R182, R183, R185). That the Reply stands first
among the telegrams sent is the model's choice: log entry 8. -/
def Claims.LeaveOperationEntersMaintenance : Prop :=
  ∀ (tag : Half) (p : List Byte) (s : State), s.admits .leaveOperation p = true → s.idleRoutes = true →
    ∃ t, exec (.leaveOperation tag p) s = .next t ∧
      (∀ e, s.kind e = some .point → (t.elem e).pointCmd = .hold ∧
        ((s.elem e).pointCmd ≠ .hold → t.elem e = { s.elem e with pointCmd := .hold, watch := none })) ∧
      (∀ e, s.kind e ≠ some .point → t.elem e = s.elem e) ∧
      s.sent ++ [⟨.c, .reply 0x03 0x04 tag .accepted .none⟩] <+: t.sent ∧
      t = { (s.taken .c).withReportsOf t with
        mode := .maintenance
        safeN := false
        auxPending := none
        auxTimer := if s.auxPending = none then s.auxTimer else none
        elems := t.elems
        sent := t.sent }

/-- Leave Operation (R161, R182, R183, R185). -/
def Obligations.LeaveOperation : Prop :=
  Claims.LeaveOperationRefused ∧ Claims.LeaveOperationEntersMaintenance

/-- RESTART is answered ACCEPTED, and the reset is to follow (R186). -/
def Claims.RestartIsAccepted : Prop :=
  ∀ (tag : Half) (p : List Byte) (s : State), s.admits .restart p = true →
    exec (.restart tag p) s = .next
      ((({ (s.taken .c) with restartPending := true } : State).replying .restart tag .accepted .none).reporting
        (s.linkOffers .c))

/-- The resets: POWER_ON_RESET, RESTART and RESTART_RESET (R178, R186). -/
def Obligations.ResetsRunStartCheck : Prop :=
  Claims.PowerOnResetRunsStartCheck ∧ Claims.RestartIsAccepted ∧ Claims.RestartResetIsPowerOnReset

/-- A C-port telegram that is in broken framing or whose CRC-16 does not match is discarded, and the link watch counts it
as invalid; a well framed one of no request kind is answered UNKNOWN_KIND with its own class, kind and tag (R34, R35,
R166 steps 1 and 2). -/
def Claims.UnknownKindIsAnswered : Prop :=
  ∀ (bytes : List Byte) (s : State),
    (parseFrame bytes = none → exec (.unknownKind bytes) s = .next (s.afterInvalid .c)) ∧
    (∀ f, parseFrame bytes = some f → reqOfCodes f.cls f.kind = none →
      exec (.unknownKind bytes) s = .next
        (((s.taken .c).send .c (.reply f.cls f.kind f.tag .unknownKind .none)).reporting (s.linkOffers .c)))

/-! ### The field link -/

/-- STATUS_TELEGRAM: an invalid one is discarded; one that comes while the tables-valid mark is clear, from an FEC that is
not configured, or with the life count last accepted is counted by the link watch and changes nothing else (R7, R34,
R35). -/
def Claims.StatusTelegramDiscarded : Prop :=
  ∀ (bytes : List Byte) (s : State),
    (statusPayload bytes = none → exec (.statusTelegram bytes) s = .next (s.afterInvalid .f)) ∧
    (∀ p, statusPayload bytes = some p →
      (s.tablesValid = false ∨ s.fecConfigured (byteAt p 0).toNat = false ∨
        s.lifeOf (byteAt p 0).toNat = some (byteAt p 1)) →
      exec (.statusTelegram bytes) s = .next ((s.taken .f).reporting (s.linkOffers .f)))

/-- STATUS_TELEGRAM, accepted: the life count is taken, each configured slot's element takes the reported state of its
code, a POINT's last throw time goes with an end position, and the supervision deadline of every element on the FEC
starts anew; no element elsewhere is touched (R7, R8, R9, R10, R26). -/
def Claims.StatusTelegramApplies : Prop :=
  ∀ (bytes p : List Byte) (s : State),
    statusPayload bytes = some p → s.tablesValid = true → s.fecConfigured (byteAt p 0).toNat = true →
    s.lifeOf (byteAt p 0).toNat ≠ some (byteAt p 1) →
    let fec := (byteAt p 0).toNat
    ∃ t, exec (.statusTelegram bytes) s = .next t ∧
      (∀ a, t.lifeOf a = if a = fec then some (byteAt p 1) else s.lifeOf a) ∧
      (∀ slot e k, slot < 4 → s.slotElem fec slot = some e → s.kind e = some k →
        let x := reportedOfCode k (byteAt p (2 + slot))
        (t.elem e).reported = x ∧
        (k = .point → (t.elem e).lastThrow =
          if x = .left ∨ x = .right then byteAt p (6 + slot) else (s.elem e).lastThrow)) ∧
      (∀ e, s.onFec fec e = true →
        (t.elem e).deadline = some (s.deadlineAfter (intervalTicks (s.erow e).interval))) ∧
      (∀ e, s.onFec fec e = false → (t.elem e).bare = (s.elem e).bare) ∧
      s.sent <+: t.sent ∧ t = { (s.taken .f).withRoutesOf t with life := t.life }

/-- A POINT at an accepted Status Telegram: at its commanded end position a running watch goes idle and the fault mark
is cleared; with an idle watch, MOVING or the other end position sets the fault mark (uncommanded movement); a point
commanded HOLD keeps both (R16, R18, R19). -/
def Claims.StatusTelegramWatchesPoint : Prop :=
  ∀ (bytes p : List Byte) (s : State) (slot e : Nat),
    statusPayload bytes = some p → s.tablesValid = true → s.fecConfigured (byteAt p 0).toNat = true →
    s.lifeOf (byteAt p 0).toNat ≠ some (byteAt p 1) → slot < 4 →
    s.slotElem (byteAt p 0).toNat slot = some e → s.kind e = some .point →
    let x := reportedOfCode .point (byteAt p (2 + slot))
    ∃ t, exec (.statusTelegram bytes) s = .next t ∧
      (∀ side : Side, (s.elem e).pointCmd = side.cmd → x = side.reported →
        (t.elem e).watch = none ∧ (t.elem e).fault = false) ∧
      (∀ side : Side, (s.elem e).pointCmd = side.cmd → (s.elem e).watch = none → (x = .moving ∨ x = side.other.reported) →
        (t.elem e).watch = none ∧ (t.elem e).fault = true ∧
        ((s.elem e).fault = false → t.latches.getLsbD 0 = true)) ∧
      ((s.elem e).pointCmd = .hold → (t.elem e).watch = (s.elem e).watch ∧ (t.elem e).fault = (s.elem e).fault)

/-- A SECTION under a Reset Order: VACANT clears its restore-pending mark where the order was sent at an earlier event,
and any other report leaves it (R10, R14). -/
def Claims.StatusTelegramRestoresSection : Prop :=
  ∀ (bytes p : List Byte) (s : State) (slot e : Nat),
    statusPayload bytes = some p → s.tablesValid = true → s.fecConfigured (byteAt p 0).toNat = true →
    s.lifeOf (byteAt p 0).toNat ≠ some (byteAt p 1) → slot < 4 →
    s.slotElem (byteAt p 0).toNat slot = some e → s.kind e = some .sect → (s.elem e).restore = true →
    ∃ t, exec (.statusTelegram bytes) s = .next t ∧
      (byteAt p (2 + slot) = 0x21 → (∀ n, (s.elem e).restoreSet = some n → n ≤ s.events) →
        (t.elem e).restore = false ∧ (t.elem e).restoreSet = none ∧ t.holds e .vacant = true) ∧
      (byteAt p (2 + slot) ≠ 0x21 →
        (t.elem e).restore = true ∧ (t.elem e).restoreSet = (s.elem e).restoreSet ∧ t.holds e .vacant = false)

/-- The slow-throw comparison: a point with a running watch that reports its commanded end position with t x 10 above l x 8
latches SLOW_THROW with its Fault Report; where no point does, the latch stays and no such report is raised (R16). -/
def Claims.StatusTelegramComparesThrow : Prop :=
  ∀ (bytes p : List Byte) (s : State),
    statusPayload bytes = some p → s.tablesValid = true → s.fecConfigured (byteAt p 0).toNat = true →
    s.lifeOf (byteAt p 0).toNat ≠ some (byteAt p 1) →
    let slow (slot e : Nat) (side : Side) := s.slotElem (byteAt p 0).toNat slot = some e ∧ s.kind e = some .point ∧
      (s.elem e).watch ≠ none ∧ (s.elem e).pointCmd = side.cmd ∧
      reportedOfCode .point (byteAt p (2 + slot)) = side.reported ∧
      (s.erow e).throwLimit * 8 < (byteAt p (6 + slot)).toNat * 10
    ∃ ev : Ev, exec (.statusTelegram bytes) s = .next ev.settle ∧ ev.before = s ∧
      (∀ slot e side, slot < 4 → slow slot e side → ev.s.latches.getLsbD 6 = true ∧
        ev.raised .fault (.fault { cls := .slowThrow, designation := s.desig e, port := none, route := none,
                                   cause := lowByte (byteAt p (6 + slot)) })) ∧
      ((∀ slot e side, slot < 4 → ¬ slow slot e side) → ev.s.latches.getLsbD 6 = s.latches.getLsbD 6 ∧
        ∀ src f, ev.raised src (.fault f) → f.cls ≠ .slowThrow)

/-- The start signal of a route is commanded DANGER, or its proven flag is clear. -/
def Claims.atDanger (s : State) (r : Nat) (t : State) : Prop :=
  if s.isEntry r then (t.elem (s.rrow r).start).proven = false else (t.elem (s.rrow r).start).aspect = .danger

/-- The first section of a route becomes OCCUPIED at a Status Telegram. In CLEARED the train has entered: the route
becomes IN_USE with group 1 OCCUPIED_SEEN, its aspect DANGER and its clear-wanted mark clear. In LOCKED, and in
CANCELLING of another purpose than FORCED, the route becomes IN_USE too, and ROUTE_FAULT is latched. In CANCELLING of
purpose FORCED it stays, and ROUTE_FAULT is latched (R121, R122, R123). That the entry comes before a release of purpose
none by DANGER_PROVEN at the same event is the model's choice: log entry 35. -/
def Claims.TrainEntersRoute : Prop :=
  ∀ (bytes : List Byte) (s : State), ∃ t, exec (.statusTelegram bytes) s = .next t ∧
    ∀ r e, s.firstSection r = some e → s.holds e .occupied = false → t.holds e .occupied = true →
      (∀ c x, s.ctx c = some x → x.route ≠ r) → (∀ g ∈ (s.route r).groups, g = .reserved) →
      (s.route r).groups ≠ [] → (∃ x ∈ s.pathSections r, x.target = e ∧ x.group = 1) →
      (∀ w ∈ s.waitList, w.route = r → w.purpose = (s.route r).purpose) →
      let entered := (t.route r).state = .inUse ∧ (t.route r).groupState 1 = .seen ∧ (t.route r).aspect = .danger ∧
        (t.route r).wasCleared = (s.route r).wasCleared ∧
        ((∀ q, q ≠ r → (s.route q).state ≠ .free → (s.rrow q).start ≠ (s.rrow r).start) → Claims.atDanger s r t)
      ((s.route r).state = .cleared → entered ∧ (t.route r).clearWanted = false) ∧
      ((s.route r).state = .locked ∨ (s.route r).state = .cancelling ∧ (s.route r).purpose ≠ .forced →
        entered ∧ t.latches.getLsbD 2 = true) ∧
      ((s.route r).state = .cancelling → (s.route r).purpose = .forced →
        (t.route r).state = .cancelling ∧ (t.route r).groups = (s.route r).groups ∧ t.latches.getLsbD 2 = true)

/-- Another path section of a route becomes OCCUPIED, its group g RESERVED: the group becomes OCCUPIED_SEEN where its
predecessor is OCCUPIED_SEEN or RELEASED; where g is 1 or the predecessor is RESERVED, and no other section of the path
becomes OCCUPIED, it stays RESERVED and ROUTE_FAULT is latched (R127, R128). -/
def Claims.TrainMarksGroup : Prop :=
  ∀ (bytes : List Byte) (s : State), ∃ t, exec (.statusTelegram bytes) s = .next t ∧
    ∀ r, ∀ x ∈ s.pathSections r, s.holds x.target .occupied = false → t.holds x.target .occupied = true →
      s.firstSection r ≠ some x.target → (∀ c y, s.ctx c = some y → y.route ≠ r) →
      ((s.route r).state = .locked ∨ (s.route r).state = .cleared ∨ (s.route r).state = .inUse) →
      1 ≤ x.group → x.group ≤ (s.route r).groups.length → (s.route r).groupState x.group = .reserved →
      (2 ≤ x.group → ((s.route r).groupState (x.group - 1)).entered = true →
        (t.route r).groupState x.group = .seen) ∧
      (x.group = 1 ∨ (s.route r).groupState (x.group - 1) = .reserved →
        (∀ y ∈ s.pathSections r, s.holds y.target .occupied = false → t.holds y.target .occupied = true → y = x) →
        (t.route r).groupState x.group = .reserved ∧ t.latches.getLsbD 2 = true)

/-- A CLEARED route one of whose path or overlap entries loses its clear condition, and whose first section does not
become OCCUPIED, reverts: it is LOCKED with its signal at DANGER and its clear-wanted mark clear, and keeps its
was-cleared mark and its groups (R115, R119). -/
def Claims.RouteRevertsAtLostCondition : Prop :=
  ∀ (bytes : List Byte) (s : State), ∃ t, exec (.statusTelegram bytes) s = .next t ∧
    ∀ r, ∀ x ∈ pathOf s.store (s.rrow r) ++ overlapOf s.store (s.rrow r),
      (s.route r).state = .cleared → s.entryClear x = true → t.entryClear x = false →
      (∀ e, s.firstSection r = some e → s.holds e .occupied = false → t.holds e .occupied = false) →
      (∀ c y, s.ctx c = some y → y.route ≠ r) → (∀ g ∈ (s.route r).groups, g = .reserved) →
      (t.route r).state = .locked ∧ (t.route r).clearWanted = false ∧ (t.route r).aspect = .danger ∧
        (t.route r).wasCleared = (s.route r).wasCleared ∧ (t.route r).groups = (s.route r).groups ∧
        ((∀ q, q ≠ r → (s.route q).state ≠ .free → (s.rrow q).start ≠ (s.rrow r).start) → Claims.atDanger s r t)

/-- An accepted Status Telegram at the elements of its FEC and at the routes that name them (R7 to R10, R14, R16, R18,
R19, R26, R115, R119, R121 to R123, R127, R128). -/
def Obligations.StatusTelegram : Prop :=
  Claims.StatusTelegramApplies ∧ Claims.StatusTelegramWatchesPoint ∧ Claims.StatusTelegramRestoresSection ∧
  Claims.StatusTelegramComparesThrow ∧ Claims.TrainEntersRoute ∧ Claims.TrainMarksGroup ∧
  Claims.RouteRevertsAtLostCondition

/-- SUPERVISION_LOSS at the base tick of an element's deadline: the deadline stops, the reported state becomes UNKNOWN
and ELEMENT_FAULT is latched; at any other time it does nothing (R27, R59; log entry 3). -/
def Claims.SupervisionLossMakesUnknown : Prop :=
  ∀ (e : Nat) (s : State),
    (s.passes (s.elem e).deadline = false → exec (.supervisionLoss e) s = .next s) ∧
    (s.passes (s.elem e).deadline = true → ∃ t, exec (.supervisionLoss e) s = .next t ∧
      (t.elem e).bare = { (s.elem e).bare with deadline := none, reported := .unknown } ∧
      t.latches.getLsbD 0 = true ∧ (∀ k, k ≠ e → (t.elem k).bare = (s.elem k).bare) ∧ s.sent <+: t.sent ∧
      t = s.begun.withRoutesOf t)

/-- THROW_TIMEOUT at the base tick of a point's throw watch: the watch goes idle, the fault mark is set, ELEMENT_FAULT is
latched, and each setting context that awaits the point fails; at any other time it does nothing (R17, R59; log entry
3). -/
def Claims.ThrowTimeoutFailsPoint : Prop :=
  ∀ (e : Nat) (s : State),
    (s.passes (s.elem e).watch = false → exec (.throwTimeout e) s = .next s) ∧
    (s.passes (s.elem e).watch = true → ∃ t, exec (.throwTimeout e) s = .next t ∧
      (t.elem e).bare = { (s.elem e).bare with watch := none, fault := true } ∧
      t.latches.getLsbD 0 = true ∧ (∀ c, c < 4 → s.ctxAwaits e c = true → t.ctx c = none ∧ t.ctxTimer c = none) ∧
      (∀ k, k ≠ e → (t.elem k).bare = (s.elem k).bare) ∧ s.sent <+: t.sent ∧ t = s.begun.withRoutesOf t)

/-- The deadlines of an element: supervision and throw watch (R17, R27, R59). -/
def Obligations.ElementDeadlines : Prop :=
  Claims.SupervisionLossMakesUnknown ∧ Claims.ThrowTimeoutFailsPoint

/-- COMMAND_REFRESH sends one Command Telegram with the commanded states of the four slots at the refresh turn of a
configured FEC, and nothing at any other time (R12; log entry 3). That the base tick at whose instant Verify Tables was
taken counts already is the model's choice: log entry 41. -/
def Claims.CommandRefreshSendsStates : Prop :=
  ∀ (fec : Nat) (s : State),
    exec (.commandRefresh fec) s = .next
      (if s.atTick = true ∧ s.tablesValid = true ∧ s.fecConfigured fec = true ∧
          s.tick % 100 = s.fecPosition fec * 100 / s.fecList.length then
        { s with sent := s.sent ++ [⟨.f, .command fec
            [s.slotCode fec 0, s.slotCode fec 1, s.slotCode fec 2, s.slotCode fec 3]⟩] }
       else s)

/-! ### The border links -/

/-- A B-link telegram whose bytes are no border telegram, or whose length does not fit its kind, is counted invalid by the
link watch and discarded (R33, R34, R35, R191). -/
def Claims.InvalidBorderTelegramDiscarded : Prop :=
  ∀ (l : Link) (s : State),
    (∀ bytes, (Instr.invalidBorderTelegram l bytes).wf = true →
      exec (.invalidBorderTelegram l bytes) s = .next (s.afterInvalid l.port)) ∧
    (∀ p, borderStatusFits p = false → exec (.borderStatus l p) s = .next (s.afterInvalid l.port)) ∧
    (∀ (k : BorderKind) p, borderTransactionFits p = false →
      exec (k.instr l p) s = .next (s.afterInvalid l.port))

/-- Telegrams that no block takes, on each of the four ports (R7, R33, R34, R35, R166, R191). -/
def Obligations.UnusableTelegramsAreDiscarded : Prop :=
  Claims.UnknownKindIsAnswered ∧ Claims.StatusTelegramDiscarded ∧ Claims.InvalidBorderTelegramDiscarded

/-- The telegram that brings a B-link UP: the link record is UP with count 0 and a new timer, one Border Status goes out
at once, then the last telegram of each transaction that is not IDLE, and the link's Fault Report is raised (R34, R35,
R37, R153). -/
def Claims.LinkUpSendsStatus : Prop :=
  ∀ (l : Link) (i : Instr) (s : State), fitsLink i l = true → s.comesUp l.port = true →
    ∃ ev : Ev, exec i s = .next ev.settle ∧ ev.before = s ∧
      ev.s.link l.port = { state := .up, count := 0, timer := some (s.deadlineAfter (s.linkTimeout l.port)) } ∧
      s.sent ++ ⟨l.port, .borderStatus (((s.taken l.port).linkElems l).map (s.taken l.port).statusEntry)⟩ :: s.resends l
        <+: ev.s.sent ∧
      ev.raised .linkUp (.fault (linkReport l.port .up))

/-- The telegram that brings a B-link UP is then handled as one that finds the link UP: on the state with the link UP and
those telegrams sent, the same command does all the rest, and the event adds the link's Fault Report before its reports
(R30, R34, R37, R153). -/
def Claims.TelegramIsHandledAfterLinkUp : Prop :=
  ∀ (l : Link) (i : Instr) (s : State), fitsLink i l = true → s.comesUp l.port = true →
    let up : State := { s.setLink l.port
        { state := .up, count := 0, timer := some (s.deadlineAfter (s.linkTimeout l.port)) } with
      sent := s.sent ++
        ⟨l.port, .borderStatus (((s.taken l.port).linkElems l).map (s.taken l.port).statusEntry)⟩ :: s.resends l }
    ∃ ev ev' : Ev, exec i s = .next ev.settle ∧ ev.before = s ∧ exec i up = .next ev'.settle ∧ ev'.before = up ∧
      ev.s = ev'.s ∧ ev.offers = ⟨.linkUp, .fault (linkReport l.port .up)⟩ :: ev'.offers ∧ ev.reached = ev'.reached

/-- The telegram that brings a B-link UP: the link, what goes out, and then the telegram itself (R30, R34, R35, R37,
R153). -/
def Obligations.BorderLinkComesUp : Prop :=
  Claims.LinkUpSendsStatus ∧ Claims.TelegramIsHandledAfterLinkUp

/-- BORDER_STATUS while the link is UP, and the one that brings it UP, writes each entry to the neighbour side of the
BORDER element of its number and sets its heard mark, the later of two entries of one number standing, and touches no
other element; before the link is UP it is only counted (R30, R139). -/
def Obligations.BorderStatusApplies : Prop :=
  ∀ (l : Link) (p : List Byte) (s : State), borderStatusFits p = true →
    ((s.link l.port).state ≠ .up → s.comesUp l.port = false →
      exec (.borderStatus l p) s = .next (s.taken l.port)) ∧
    ((s.link l.port).state = .up ∨ s.comesUp l.port = true →
      ∃ t, exec (.borderStatus l p) s = .next t ∧
        (∀ pre x post e, statusEntries p = pre ++ x :: post → (∀ y ∈ post, y.point ≠ x.point) →
          s.borderElem l x.point = some e →
          (t.elem e).bare = { (s.elem e).bare with
            nbr := x.home, nbrEntryProven := x.entryProven, nbrOnwardClear := x.onwardClear, heard := true }) ∧
        (∀ e, (∀ x ∈ statusEntries p, s.borderElem l x.point ≠ some e) → (t.elem e).bare = (s.elem e).bare) ∧
        s.sent <+: t.sent ∧ t = (s.taken l.port).withRoutesOf t)

/-- OFFER is answered Decline: NOT_READY outside OPERATIONAL; UNKNOWN_ROUTE where no BORDER element of the link carries
the number or no ENTRY route is found; BORDER_BUSY where the transaction is HELD_OUT, or IN_HELD under another reference,
or another entry request waits; BUSY where the route is not FREE or the Request Queue is full; CROSSING at the SENIOR
side of a crossing. The transaction does not change (R47, R77, R143, R144). That the Border Report for a number of no
BORDER element names designation 0 and no states is the model's choice: log entry 20. -/
def Obligations.OfferIsDeclined : Prop :=
  ∀ (l : Link) (p : List Byte) (s : State), borderTransactionFits p = true → s.comesUp l.port = false →
    let tx := borderTxOf .offer p
    let found := s.borderElem l (byteAt p 0).toNat
    let declined (x : Reason) := exec (.offer l p) s = .next (s.declines l found tx x)
    (s.mode ≠ .operational → declined .notReady) ∧
    (s.mode = .operational → found = none → declined .unknownRoute) ∧
    (∀ e, s.mode = .operational → found = some e →
      ((s.transOf e).state = .heldOut → declined .borderBusy) ∧
      ((s.transOf e).state = .inHeld → (s.transOf e).reference ≠ some (byteAt p 1) → declined .borderBusy) ∧
      ((s.transOf e).state = .offerSent → siteSeniority s.store l = 1 → declined .crossing) ∧
      ((s.transOf e).state = .idle → s.offerRoute e tx = none → declined .unknownRoute) ∧
      (∀ r, (s.transOf e).state = .idle → s.offerRoute e tx = some r →
        (∀ q ∈ s.entryRequests e, (s.route q).origin ≠ some (.neighbour l (byteAt p 1))) →
        (s.entryRequests e ≠ [] → declined .borderBusy) ∧
        (s.entryRequests e = [] → (s.route r).state ≠ .free → declined .busy) ∧
        (s.entryRequests e = [] → (s.route r).state = .free → 8 ≤ s.requests.length → declined .busy)))

/-- OFFER of a FREE ENTRY route over an IDLE transaction, with no entry request waiting and a place in the Request Queue:
the route becomes QUEUED with origin NEIGHBOUR, the link and the reference (R77, R143). -/
def Obligations.OfferQueuesEntryRoute : Prop :=
  ∀ (l : Link) (p : List Byte) (s : State) (e r : Nat),
    borderTransactionFits p = true → s.comesUp l.port = false → s.mode = .operational →
    s.borderElem l (byteAt p 0).toNat = some e → (s.transOf e).state = .idle →
    s.offerRoute e (borderTxOf .offer p) = some r → s.entryRequests e = [] → (s.route r).state = .free →
    s.requests.length < 8 →
    let o : Origin := .neighbour l (byteAt p 1)
    exec (.offer l p) s = .next
      ((({ (s.taken l.port) with requests := s.requests ++ [⟨r, o⟩] } : State).setRoute r
          { s.route r with state := .queued, origin := some o }).reporting
        [⟨.route, .route { route := r, key := s.routeKeyOf r, event := .queued, origin := some o,
                           deferred := (s.route r).deferred, clamped := (s.route r).clamped }⟩])

/-- OFFER at the JUNIOR side of a crossing: the context that awaits the reply fails with BORDER_CROSSING, its Offer is
withdrawn, and the transaction is IDLE before the Offer received is taken (R89, R144). -/
def Obligations.CrossingJuniorGivesWay : Prop :=
  ∀ (l : Link) (p : List Byte) (s : State) (e c : Nat) (x : Ctx) (ref : Byte),
    borderTransactionFits p = true → s.comesUp l.port = false → s.mode = .operational →
    s.borderElem l (byteAt p 0).toNat = some e → (s.transOf e).state = .offerSent → siteSeniority s.store l ≠ 1 →
    s.ctxAwaiting e = some c → s.ctx c = some x → x.offerRef = some ref →
    ∃ ev : Ev, exec (.offer l p) s = .next ev.settle ∧ ev.before = s ∧ (ev.s.transOf e).state = .idle ∧
      ev.s.ctx c = none ∧ ev.s.ctxTimer c = none ∧
      s.sent ++ [⟨l.port, .transaction (plainTx .withdraw (s.pointByte e) ref 0x09)⟩] <+: ev.s.sent ∧
      ev.raised .route (.route
        { route := x.route, key := s.routeKeyOf x.route, event := .refused .borderCrossing (s.desig e),
          origin := (s.route x.route).origin, deferred := (s.route x.route).deferred,
          clamped := (s.route x.route).clamped })

/-- A border transaction telegram that only moves its link watch: any but an Offer for a number that no BORDER element of
the link carries; an Offer repeated while its request waits; an Accept repeated in HELD_OUT; a Handback that does not
match; a Withdraw that matches neither the transaction nor an entry request (R77, R141, R146, R149, R150). -/
def Obligations.BorderTelegramIgnored : Prop :=
  ∀ (l : Link) (p : List Byte) (s : State), borderTransactionFits p = true → s.comesUp l.port = false →
    let ref := byteAt p 1
    let ignored (k : BorderKind) := exec (k.instr l p) s = .next (s.taken l.port)
    (∀ k : BorderKind, k ≠ .offer → s.borderElem l (byteAt p 0).toNat = none → ignored k) ∧
    (∀ e, s.borderElem l (byteAt p 0).toNat = some e →
      (∀ r q, s.mode = .operational → (s.transOf e).state = .idle → s.offerRoute e (borderTxOf .offer p) = some r →
        q ∈ s.entryRequests e → (s.route q).origin = some (.neighbour l ref) → ignored .offer) ∧
      ((s.transOf e).state = .heldOut → (s.transOf e).reference = some ref → ignored .accept) ∧
      (¬ ((s.transOf e).state = .inHeld ∧ (s.transOf e).reference = some ref) → ignored .handback) ∧
      ((s.transOf e).state = .heldOut → ignored .withdraw) ∧
      ((s.transOf e).state = .inHeld → (s.transOf e).reference ≠ some ref → ignored .withdraw) ∧
      (((s.transOf e).state = .idle ∨ (s.transOf e).state = .offerSent) →
        (∀ r, (s.route r).state.waiting = true → (s.route r).origin ≠ some (.neighbour l ref)) → ignored .withdraw))

/-- ACCEPT of the Offer that is out makes the transaction HELD_OUT under the same reference, takes BORDER_REPLY from the
context that awaits it and stops its timer, with a Border Report; a repeated Accept in HELD_OUT is ignored; any other
Accept is answered Withdraw, reason BORDER_TIMEOUT, with a Border Report and the transaction unchanged. A repeated Offer in
IN_HELD is answered Accept again (R86, R143, R146). -/
def Obligations.AcceptIsTaken : Prop :=
  ∀ (l : Link) (p : List Byte) (s : State) (e : Nat),
    borderTransactionFits p = true → s.comesUp l.port = false → s.borderElem l (byteAt p 0).toNat = some e →
    ((s.transOf e).state = .offerSent → (s.transOf e).reference = some (byteAt p 1) →
      ∃ ev : Ev, exec (.accept l p) s = .next ev.settle ∧ ev.before = s ∧
        ev.s.transOf e = { s.transOf e with state := .heldOut } ∧
        (∀ c x, s.ctxAwaiting e = some c → s.ctx c = some x → ev.s.ctxTimer c = none ∧
          (x.awaited ≠ [] → ev.s.ctx c = some { x with reply := false }) ∧
          (x.awaited = [] → ev.s.ctx c = none ∧ (ev.s.route x.route).state = .locked)) ∧
        (s.ctxAwaiting e = none → ev.s = (s.taken l.port).setTrans e { s.transOf e with state := .heldOut }) ∧
        ev.raised (.border l) (.border
          { designation := s.desig e, link := l, point := s.pointByte e, before := some .offerSent,
            after := some .heldOut, reference := byteAt p 1, cause := .received .accept, reason := none })) ∧
    ((s.transOf e).state = .heldOut → (s.transOf e).reference = some (byteAt p 1) →
      exec (.accept l p) s = .next (s.taken l.port)) ∧
    ((s.transOf e).state ≠ .offerSent ∧ (s.transOf e).state ≠ .heldOut ∨
        (s.transOf e).reference ≠ some (byteAt p 1) →
      exec (.accept l p) s = .next
        (s.answeredBorder l (some e) (plainTx .withdraw (byteAt p 0) (byteAt p 1) 0x07))) ∧
    (s.mode = .operational → (s.transOf e).state = .inHeld → (s.transOf e).reference = some (byteAt p 1) →
      exec (.offer l p) s = .next
        ((s.taken l.port).send l.port (.transaction (plainTx .accept (byteAt p 0) (byteAt p 1) 0))))

/-- DECLINE of the Offer that is out makes the transaction IDLE, and the context that awaits the reply fails with
BORDER_DECLINED: its route becomes FREE, no element stays locked by it, its claims are dropped, and nothing is sent for a
route of origin CONTROL. Any other Decline is ignored (R89, R90, R147). -/
def Obligations.DeclineEndsOffer : Prop :=
  ∀ (l : Link) (p : List Byte) (s : State) (e : Nat),
    borderTransactionFits p = true → s.comesUp l.port = false → s.borderElem l (byteAt p 0).toNat = some e →
    (¬ ((s.transOf e).state = .offerSent ∧ (s.transOf e).reference = some (byteAt p 1)) →
      exec (.decline l p) s = .next (s.taken l.port)) ∧
    ((s.transOf e).state = .offerSent → (s.transOf e).reference = some (byteAt p 1) →
    ∃ ev : Ev, exec (.decline l p) s = .next ev.settle ∧ ev.before = s ∧ ev.s.transOf e = {} ∧
      ev.raised (.border l) (.border
        { designation := s.desig e, link := l, point := s.pointByte e, before := some .offerSent, after := some .idle,
          reference := byteAt p 1, cause := .received .decline, reason := some (byteAt p 2) }) ∧
      (∀ c x, s.ctxAwaiting e = some c → s.ctx c = some x →
        ev.s.ctx c = none ∧ ev.s.ctxTimer c = none ∧ ev.s.route x.route = {} ∧
        (∀ k, (ev.s.elem k).lockOwner ≠ some x.route) ∧
        (∀ k, (ev.s.elem k).claims =
          (s.elem k).claims - ((s.route x.route).flank.filter (fun f => f.elem == k)).length) ∧
        ((s.route x.route).origin = none ∨ (∃ tag, (s.route x.route).origin = some (.control tag)) →
          ev.s.sent = s.sent) ∧
        ev.raised .route (.route
          { route := x.route, key := s.routeKeyOf x.route, event := .refused .borderDeclined (s.desig e),
            origin := (s.route x.route).origin, deferred := (s.route x.route).deferred,
            clamped := (s.route x.route).clamped })) ∧
      ev.s = (s.taken l.port).withRoutesOf ev.s)

/-- WITHDRAW in IN_HELD under the neighbour's reference makes the transaction IDLE: an ENTRY route of that reference with
no group entered is released in full, its proven flag cleared first where it is CLEARED; one that the train has entered
only loses its lock on the BORDER element, and BORDER_FAULT is latched. A Withdraw for an entry request that is QUEUED
cancels it without a Decline (R94, R149). That the route of the lowest index is taken where two match is the model's
choice: log entry 43. -/
def Claims.WithdrawEndsEntry : Prop :=
  ∀ (l : Link) (p : List Byte) (s : State) (e : Nat),
    borderTransactionFits p = true → s.comesUp l.port = false → s.borderElem l (byteAt p 0).toNat = some e →
    ((s.transOf e).state = .inHeld → (s.transOf e).reference = some (byteAt p 1) →
      ∃ ev : Ev, exec (.withdraw l p) s = .next ev.settle ∧ ev.before = s ∧ ev.s.transOf e = {} ∧
        ev.raised (.border l) (.border
          { designation := s.desig e, link := l, point := s.pointByte e, before := some .inHeld, after := some .idle,
            reference := byteAt p 1, cause := .received .withdraw, reason := some (byteAt p 2) }) ∧
        (s.entryUnder l e (byteAt p 1) (fun _ => true) = none → ev.s = (s.taken l.port).setTrans e {}) ∧
        (∀ r, s.entryUnder l e (byteAt p 1) (fun _ => true) = some r →
          ((s.route r).groups.any GroupState.entered = false → ev.s.route r = {} ∧
            ((s.route r).state = .cleared → (ev.s.elem e).proven = false)) ∧
          ((s.route r).groups.any GroupState.entered = true →
            (ev.s.elem e).lockOwner ≠ some r ∧ ev.s.latches.getLsbD 3 = true ∧ ev.s.routes = s.routes))) ∧
    (∀ r, (s.transOf e).state = .idle ∨ (s.transOf e).state = .offerSent →
      s.entryUnder l e (byteAt p 1)
        (fun x => x == .queued || ((s.transOf e).state == .idle && x == .setting)) = some r →
      (s.route r).state = .queued →
      exec (.withdraw l p) s = .next
        ((({ (s.taken l.port) with requests := s.requests.filter (fun q => q.route != r) } : State).setRoute r
            {}).reporting
          [⟨.route, .route { route := r, key := s.routeKeyOf r, event := .cancelled .cancelled,
                             origin := (s.route r).origin, deferred := (s.route r).deferred,
                             clamped := (s.route r).clamped }⟩]))

/-- A Withdraw for an entry request that is SETTING, while the transaction is IDLE: its context fails with CANCELLED,
naming the BORDER element, and releases the route; no Decline is sent (R89, R90, R94, R149). -/
def Claims.WithdrawEndsSetting : Prop :=
  ∀ (l : Link) (p : List Byte) (s : State) (e r c : Nat) (x : Ctx),
    borderTransactionFits p = true → s.comesUp l.port = false → s.borderElem l (byteAt p 0).toNat = some e →
    (s.transOf e).state = .idle →
    s.entryUnder l e (byteAt p 1) (fun x => x == .queued || x == .setting) = some r → (s.route r).state = .setting →
    s.ctxOf r = some c → s.ctx c = some x → x.offerRef = none →
    ∃ ev : Ev, exec (.withdraw l p) s = .next ev.settle ∧ ev.before = s ∧ ev.s.route r = {} ∧ ev.s.ctx c = none ∧
      ev.s.ctxTimer c = none ∧ (∀ k, (ev.s.elem k).lockOwner ≠ some r) ∧ ev.s.sent = s.sent ∧
      ev.offers = [⟨.route, .route
        { route := r, key := s.routeKeyOf r, event := .refused .cancelled (s.desig e), origin := (s.route r).origin,
          deferred := (s.route r).deferred, clamped := (s.route r).clamped }⟩] ∧
      ev.s = (s.taken l.port).withRoutesOf ev.s

/-- HANDBACK in IN_HELD under the neighbour's reference makes the transaction IDLE, and the ENTRY route of that reference
loses its lock on the BORDER element; its record stays (R150). That the route of the lowest index is taken where two
match is the model's choice: log entry 43. -/
def Claims.HandbackEndsTransaction : Prop :=
  ∀ (l : Link) (p : List Byte) (s : State) (e : Nat),
    borderTransactionFits p = true → s.comesUp l.port = false → s.borderElem l (byteAt p 0).toNat = some e →
    (s.transOf e).state = .inHeld → (s.transOf e).reference = some (byteAt p 1) →
    ∃ ev : Ev, exec (.handback l p) s = .next ev.settle ∧ ev.before = s ∧ ev.s.transOf e = {} ∧
      (∀ r, s.entryUnder l e (byteAt p 1) (fun _ => true) = some r → (ev.s.elem e).lockOwner ≠ some r) ∧
      (∀ k, k ≠ e → ev.s.elem k = s.elem k) ∧
      ev.raised (.border l) (.border
        { designation := s.desig e, link := l, point := s.pointByte e, before := some .inHeld, after := some .idle,
          reference := byteAt p 1, cause := .received .handback, reason := none }) ∧
      ev.s = { (s.taken l.port) with trans := ev.s.trans, elems := ev.s.elems }

/-- Withdraw and Handback received (R94, R149, R150). -/
def Obligations.WithdrawAndHandback : Prop :=
  Claims.WithdrawEndsEntry ∧ Claims.WithdrawEndsSetting ∧ Claims.HandbackEndsTransaction

/-- BORDER_STATUS_SEND sends one Border Status with an entry for each BORDER element of the link in ascending number, at
the base ticks whose count leaves 0 (B1) or 25 (B2) on division by 50, and nothing at any other time (R137; log entry
3). -/
def Claims.BorderStatusSendOnSchedule : Prop :=
  ∀ (l : Link) (s : State),
    exec (.borderStatusSend l) s = .next
      (if s.atTick = true ∧ s.tick % 50 = (match l with | .b1 => 0 | .b2 => 25) then
        { s with sent := s.sent ++ [⟨l.port, .borderStatus ((s.linkElems l).map s.statusEntry)⟩] }
       else s)

/-- The telegrams sent on the schedule of the base tick (R12, R137). -/
def Obligations.ScheduledTelegrams : Prop :=
  Claims.CommandRefreshSendsStates ∧ Claims.BorderStatusSendOnSchedule

/-! ### Events inside the part -/

/-- RESERVATION takes the head of the Request Queue where the mode is OPERATIONAL, a request waits and a context is FREE,
and does nothing otherwise. A request that fails a test, or a flank walk, is refused with the reason and the element of
the first failure: its route becomes FREE, nothing is locked, and a neighbour is answered Decline with the same reason
(R53, R80, R82). That a point refused for its point section is named itself is the model's choice: log entry 39. -/
def Obligations.ReservationRefusesRequest : Prop :=
  ∀ s : State,
    ((s.mode ≠ .operational ∨ s.requests = [] ∨ ∀ c, c < 4 → s.ctx c ≠ none) → exec .reservation s = .next s) ∧
    (∀ (q : Request) (rest : List Request) (x : Reason) (e : Nat),
      s.mode = .operational → s.requests = q :: rest → (∃ c, c < 4 ∧ s.ctx c = none) →
      (s.route q.route).state = .queued → s.reservationOutcome q.route = .error (x, e) →
      let r := q.route
      let u : State := ({ s.begun with requests := rest } : State).setRoute r {}
      let os : List Offer := [⟨.route, .route
        { route := r, key := s.routeKeyOf r, event := .refused x (s.desig e), origin := (s.route r).origin,
          deferred := (s.route r).deferred, clamped := (s.route r).clamped }⟩]
      let b := (s.rrow r).start
      exec .reservation s = .next
        (match q.origin with
         | .neighbour l ref =>
           let tx := plainTx .decline (s.pointByte b) ref x.code
           (u.send l.port (.transaction tx)).reporting
             (os ++ [⟨.border l, .border (s.unchangedBorder l (some b) tx)⟩])
         | .control _ => u.reporting os))

/-- RESERVATION, its tests passed: the free context of the lowest number takes the route, every element of the locked set
is locked by it, each record of the flank resolution makes a claim and gives a point its claimed position, every point of
the route is commanded to its required position with its throw watch, and the route is SETTING, or LOCKED at once where
nothing is awaited. An EXIT route sends its Offer, under the link's reference count raised by one, and awaits the reply
with its context timer running. An ENTRY route of origin NEIGHBOUR that is LOCKED at once sends Accept, and its
transaction is IN_HELD (R15, R42, R79, R81, R83, R84, R87, R88, R104, R142). The awaited set of the context's record holds
the points that R83 gives it; the order in which the record lists them is the model's choice: log entry 38. -/
def Claims.ReservationTakesRoute : Prop :=
  ∀ (s : State) (q : Request) (rest : List Request) (c : Nat) (res : List FlankRec),
    s.mode = .operational → s.requests = q :: rest → s.freeCtxNumber = some c →
    s.reservationOutcome q.route = .ok res →
    let r := q.route
    let w := s.rrow r
    let awaited := (s.routePoints r res).filter (fun a => !s.atSide a.elem a.side)
    ∃ ev : Ev, exec .reservation s = .next ev.settle ∧ ev.before = s ∧ ev.s.requests = rest ∧
      (∀ e, e ∈ s.lockedSet r → (ev.s.elem e).lockOwner = some r) ∧
      (∀ e, e ∉ s.lockedSet r → (ev.s.elem e).lockOwner = (s.elem e).lockOwner) ∧
      (∀ e, (ev.s.elem e).claims = (s.elem e).claims + (res.filter (fun f => f.elem == e)).length) ∧
      (∀ f side, f ∈ res → f.state.side = some side → (ev.s.elem f.elem).claimed = some side) ∧
      (∀ e, (∀ f, f ∈ res → f.elem ≠ e) → (ev.s.elem e).claimed = (s.elem e).claimed) ∧
      (∀ a, a ∈ s.routePoints r res → (ev.s.elem a.elem).pointCmd = a.side.cmd ∧
        (ev.s.elem a.elem).watch = if (s.elem a.elem).reported = a.side.reported then none
          else some (s.deadlineAfter (10 * (s.erow a.elem).throwLimit))) ∧
      (∀ e, (∀ a, a ∈ s.routePoints r res → a.elem ≠ e) → (ev.s.elem e).pointCmd = (s.elem e).pointCmd) ∧
      (ev.s.route r).flank = res ∧ (ev.s.route r).groups = List.replicate w.groups .reserved ∧
      (ev.s.route r).wasCleared = false ∧
      (∀ l, s.routeKind r = some .exit → s.elemLink w.dest = some l →
        (ev.s.route r).state = .setting ∧ (ev.s.transOf w.dest).state = .offerSent ∧
        (ev.s.transOf w.dest).reference = some (s.offerRef l + 1) ∧ ev.s.offerRef l = s.offerRef l + 1 ∧
        ev.s.ctx c = some { route := r, awaited := awaited, reply := true, offerRef := some (s.offerRef l + 1) } ∧
        ev.s.ctxTimer c = some (s.startTimer (timerSetting (1000 * siteReplyTime s.store))) ∧
        ev.s.sent = s.sent ++ [⟨l.port, .transaction (s.offerTx l w.dest w.variant)⟩]) ∧
      (s.routeKind r ≠ some .exit → awaited ≠ [] →
        (ev.s.route r).state = .setting ∧ (ev.s.route r).context = some c ∧
        ev.s.ctx c = some { route := r, awaited := awaited, reply := false, offerRef := none }) ∧
      (s.routeKind r ≠ some .exit → awaited = [] →
        (ev.s.route r).state = .locked ∧ (ev.s.route r).context = none ∧ (ev.s.route r).clearWanted = true ∧
        ev.s.ctx c = none ∧
        (∀ l ref, s.isEntry r = true → (s.route r).origin = some (.neighbour l ref) →
          let tx := plainTx .accept (s.pointByte w.start) ref 0
          ev.s.transOf w.start = { state := .inHeld, reference := some ref, lastSent := some tx } ∧
          ev.s.sent = s.sent ++ [⟨l.port, .transaction tx⟩] ∧
          ev.raised (.border l) (.border
            { designation := s.desig w.start, link := l, point := s.pointByte w.start,
              before := some (s.transOf w.start).state, after := some .inHeld, reference := ref,
              cause := .sent .accept, reason := none })) ∧
        (s.isEntry r = false ∨ (∀ l ref, (s.route r).origin ≠ some (.neighbour l ref)) → ev.s.sent = s.sent)) ∧
      (∀ k, k ≠ r → ev.s.route k = s.route k)

/-- The completion of a context, at whatever event its awaited set becomes empty: its route is LOCKED with its
clear-wanted mark set, the context is FREE and its timer stopped; an ENTRY route of origin NEIGHBOUR sends Accept under
its reference, and its transaction is IN_HELD (R87, R88). -/
def Claims.CompletedEntryIsAccepted : Prop :=
  ∀ (ev : Ev) (c : Nat) (x : Ctx), ev.s.ctx c = some x → x.awaited = [] → x.reply = false →
    let e := (ev.s.rrow x.route).start
    let done := ev.completeIfDone c
    done.s.ctx c = none ∧ done.s.ctxTimer c = none ∧ x.route ∈ done.reached ∧
    done.s.route x.route = { ev.s.route x.route with state := .locked, context := none, clearWanted := true } ∧
    (∀ l ref, ev.s.isEntry x.route = true → (ev.s.route x.route).origin = some (.neighbour l ref) →
      let tx := plainTx .accept (ev.s.pointByte e) ref 0
      done.s.transOf e = { state := .inHeld, reference := some ref, lastSent := some tx } ∧
      done.s.sent = ev.s.sent ++ [⟨l.port, .transaction tx⟩]) ∧
    (ev.s.isEntry x.route = false ∨ (∀ l ref, (ev.s.route x.route).origin ≠ some (.neighbour l ref)) →
      done.s.trans = ev.s.trans ∧ done.s.sent = ev.s.sent)

/-- Reservation and completion of a route (R15, R42, R79, R81, R83, R84, R87, R88, R104, R142). The order of the awaited
set in the context's record is the model's choice: log entry 38. -/
def Obligations.ReservationLocksRoute : Prop :=
  Claims.ReservationTakesRoute ∧ Claims.CompletedEntryIsAccepted

/-- LINK_TIMER_EXPIRY at the base tick of a port's link timer: in DOWN and LOST the count returns to 0 and the timer
stops; an UP link of the C-port or F-port becomes LOST, LINK_FAULT is latched with the port and reported, and the C-port's
loss discards a pending auxiliary command. At any other time it does nothing (R34, R35, R37, R161, R177; log entry 3). -/
def Obligations.LinkTimerExpiryLosesLink : Prop :=
  ∀ (p : Port) (s : State),
    (s.passes (s.link p).timer = false → exec (.linkTimerExpiry p) s = .next s) ∧
    (s.passes (s.link p).timer = true → (s.link p).state ≠ .up →
      exec (.linkTimerExpiry p) s = .next (s.afterInvalid p)) ∧
    (s.passes (s.link p).timer = true → (s.link p).state = .up →
      let lost : State := { (s.begun.setLink p { state := .lost }).latch .linkFault with
        lostPorts := s.lostPorts ||| (1#4 <<< portBit p) }
      let os : List Offer := [⟨.link, .fault (linkReport p .lost)⟩]
      (p = .f → exec (.linkTimerExpiry p) s = .next (lost.reporting os)) ∧
      (p = .c → s.auxPending = none → exec (.linkTimerExpiry p) s = .next (lost.reporting os)) ∧
      (∀ old, p = .c → s.auxPending = some old → exec (.linkTimerExpiry p) s = .next
        (({ lost with auxPending := none, auxTimer := none } : State).reporting (os ++ [⟨.aux, .aux
          { event := .discarded .linkLost, cmd := old.cmd, target := s.auxTarget old.cmd, tag := old.tag }⟩]))))

/-- A B-link that falls silent is LOST: LINK_FAULT is latched with its port, its BORDER elements lose the neighbour side
and their heard mark, each Offer that is out returns to IDLE and its context fails, and no entry request over the link
stays QUEUED or SETTING: a SETTING one's context fails with BORDER_LINK_LOST and releases its route. No telegram is sent
for any of them (R31, R35, R89, R90, R94, R148, R152). The premise, that only an EXIT route's context holds an Offer, is
a part of what every step keeps (State.Owned). -/
def Obligations.BorderLinkLossEndsOffers : Prop :=
  ∀ (l : Link) (s : State), s.passes (s.link l.port).timer = true → (s.link l.port).state = .up →
    (∀ c x, s.ctx c = some x → x.offerRef ≠ none → s.routeKind x.route = some .exit) →
    ∃ ev : Ev, exec (.linkTimerExpiry l.port) s = .next ev.settle ∧ ev.before = s ∧ ev.s.sent = s.sent ∧
      ev.s.link l.port = { state := .lost, count := 0, timer := none } ∧
      ev.s.lostPorts = s.lostPorts ||| (1#4 <<< portBit l.port) ∧ ev.s.latches.getLsbD 1 = true ∧
      ev.raised .link (.fault (linkReport l.port .lost)) ∧
      (∀ e, e ∈ s.linkElems l → (ev.s.elem e).bare =
        { (s.elem e).bare with heard := false, nbr := .unknown, nbrEntryProven := false, nbrOnwardClear := false }) ∧
      (∀ e, e ∉ s.linkElems l → (ev.s.elem e).bare = (s.elem e).bare) ∧
      (∀ e, e ∈ s.linkElems l → (s.transOf e).state = .offerSent →
        ev.s.transOf e = {} ∧ (∀ c, s.ctxAwaiting e = some c → ev.s.ctx c = none ∧ ev.s.ctxTimer c = none)) ∧
      (∀ r, s.routeKind r = some .entry → s.onLink l (s.rrow r).start = true → (s.route r).state = .queued →
        ev.s.route r = {} ∧ ∀ q ∈ ev.s.requests, q.route ≠ r) ∧
      (∀ r c, s.routeKind r = some .entry → s.onLink l (s.rrow r).start = true → (s.route r).state = .setting →
        s.ctxOf r = some c →
        ev.s.route r = {} ∧ ev.s.ctx c = none ∧ ev.s.ctxTimer c = none ∧ (∀ e, (ev.s.elem e).lockOwner ≠ some r) ∧
        ev.raised .route (.route
          { route := r, key := s.routeKeyOf r, event := .refused .borderLinkLost (s.desig (s.rrow r).start),
            origin := (s.route r).origin, deferred := (s.route r).deferred, clamped := (s.route r).clamped }))

/-- RELEASE_TIMER_EXPIRY of a held timer that has expired: its owner is released in full, no element stays locked by it,
and the timer goes at once to the head of the wait list, with a new setting, or is free where the list is empty. An owner
that is an EXIT route in HELD_OUT sends Handback where a group of it was entered and Withdraw CANCELLED where none was,
and its transaction becomes IDLE; no other transaction changes and no other telegram is sent. Otherwise nothing happens
(R67, R68, R126, R132, R133, R134, R148, R150, R162; log entry 3). -/
def Obligations.ReleaseTimerExpiryReleases : Prop :=
  ∀ (i : Nat) (s : State),
    ((∀ h, s.timerOf i = some h → h.timer.expired = false) → exec (.releaseTimerExpiry i) s = .next s) ∧
    (∀ h, s.timerOf i = some h → h.timer.expired = true → h.purpose ≠ .none →
      ∃ ev : Ev, exec (.releaseTimerExpiry i) s = .next ev.settle ∧ ev.before = s ∧
        (ev.s.route h.owner).state = .free ∧ (∀ e, (ev.s.elem e).lockOwner ≠ some h.owner) ∧
        Claims.borderSideEnds s h.owner s.sent ev ∧
        (match s.waitList.filter (fun w => w.route != h.owner) with
         | [] => ev.s.timerOf i = none ∧ ev.s.waitList = []
         | w :: rest =>
           let x := timerSetting (s.requiredMs w.route w.purpose)
           ev.s.timerOf i = some { owner := w.route, purpose := w.purpose, timer := s.startTimer x } ∧
           ev.s.waitList = rest ∧ (ev.s.route w.route).timer = some i ∧
           (ev.s.route w.route).purpose = w.purpose ∧ (ev.s.route w.route).deferred = false ∧
           (ev.s.route w.route).clamped = x.clamped) ∧
        ev.raised .route (.route
          { route := h.owner, key := s.routeKeyOf h.owner, event := .released, origin := (s.route h.owner).origin,
            deferred := false, clamped := false }) ∧
        (∀ e, (ev.s.elem e).bare = (s.elem e).bare) ∧ ev.s = s.begun.withRoutesOf ev.s)

/-- CONTEXT_TIMER_EXPIRY of a context timer that has expired: the context fails with BORDER_TIMEOUT, naming its
destination, its Offer is withdrawn where the transaction still stands, its route becomes FREE, its claims are dropped and
the timer stops. Otherwise nothing happens (R70, R89, R90; log entry 3). -/
def Obligations.ContextTimerExpiryFailsContext : Prop :=
  ∀ (c : Nat) (s : State),
    ((∀ t, s.ctxTimer c = some t → t.expired = false) → exec (.contextTimerExpiry c) s = .next s) ∧
    (∀ t x, s.ctxTimer c = some t → t.expired = true → s.ctx c = some x →
      ∃ ev : Ev, exec (.contextTimerExpiry c) s = .next ev.settle ∧ ev.before = s ∧ ev.s.ctx c = none ∧
        ev.s.ctxTimer c = none ∧ ev.s.route x.route = {} ∧ (∀ e, (ev.s.elem e).lockOwner ≠ some x.route) ∧
        (∀ e, (ev.s.elem e).claims =
          (s.elem e).claims - ((s.route x.route).flank.filter (fun f => f.elem == e)).length) ∧
        (∀ ref l, x.offerRef = some ref → s.elemLink (s.rrow x.route).dest = some l →
          (s.transOf (s.rrow x.route).dest).state = .offerSent ∨
            (s.transOf (s.rrow x.route).dest).state = .heldOut →
          ev.s.transOf (s.rrow x.route).dest = {} ∧
          s.sent ++ [⟨l.port, .transaction (plainTx .withdraw (s.pointByte (s.rrow x.route).dest) ref 0x07)⟩]
            <+: ev.s.sent) ∧
        ev.raised .route (.route
          { route := x.route, key := s.routeKeyOf x.route,
            event := .refused .borderTimeout (s.desig (s.rrow x.route).dest), origin := (s.route x.route).origin,
            deferred := (s.route x.route).deferred, clamped := (s.route x.route).clamped }) ∧
        (∀ k, k ≠ x.route → ev.s.route k = s.route k) ∧ ev.s = s.begun.withRoutesOf ev.s)

/-- STARTUP_END at the STARTUP deadline makes the mode OPERATIONAL, with its Mode Report, and does nothing at any other
time (R182, R184; log entry 3). -/
def Claims.StartupEndMakesOperational : Prop :=
  ∀ s : State,
    exec .startupEnd s = .next
      (if s.mode = .startup ∧ s.passes s.startupDeadline = true then
        ({ s.begun with mode := .operational, safeN := true, startupDeadline := none } : State).reporting
          [⟨.route, .mode (some .startup) .operational .startupEnd⟩]
       else s)

/-- Enter Operation and the end of STARTUP (R182, R184). -/
def Obligations.StartupBeginsAndEnds : Prop :=
  Claims.EnterOperationStartsUp ∧ Claims.StartupEndMakesOperational

/-- BACKGROUND_CHECK, every 6,000 base ticks outside MAINTENANCE, does nothing where the tables still give the stored
CRC-32; a mismatch latches TABLE_FAULT. In STARTUP and OPERATIONAL it also enters SAFE_STOP: SAFE_N goes low, every
queued request and every setting context ends, no route stays CLEARED, and a pending auxiliary command is discarded
(R95, R120, R161, R182, R187, R188; log entry 3). That it is made too at the base tick at whose instant Enter Operation
was taken is the model's choice: log entry 44. -/
def Obligations.BackgroundCheckEntersSafeStop : Prop :=
  ∀ s : State,
    (¬ (s.atTick = true ∧ s.tick % 6000 = 0 ∧ s.mode ≠ .maintenance) ∨ tableCrc s.store = s.storedCrc →
      exec .backgroundCheck s = .next s) ∧
    (s.atTick = true → s.tick % 6000 = 0 → tableCrc s.store ≠ s.storedCrc →
      (s.mode = .safeStop → exec .backgroundCheck s = .next ((s.begun.latch .tableFault).reporting
        [⟨.route, .fault { cls := .tableFault, designation := 0, port := none, route := none, cause := 4 }⟩])) ∧
      (s.mode = .startup ∨ s.mode = .operational →
        ∃ t, exec .backgroundCheck s = .next t ∧ t.mode = .safeStop ∧ t.safeN = false ∧ t.latches.getLsbD 4 = true ∧
          t.startupDeadline = none ∧ t.requests = [] ∧ (∀ c, c < 4 → t.ctx c = none) ∧
          (∀ r, (t.route r).state ≠ .cleared) ∧ t.auxPending = none ∧ (∀ e, (t.elem e).bare = (s.elem e).bare) ∧
          t = { s.begun.withRoutesOf t with
            mode := .safeStop, safeN := false, startupDeadline := none, requests := [], auxPending := none,
            auxTimer := if s.auxPending = none then s.auxTimer else none }))

/-- REPORT_SEND, while the C-port link is UP and a report waits: the head of the queue goes out under the sequence count,
which rises by one. An overrun notice then takes the freed place as a Fault Report with the lost count, which returns to
0, or is only cleared where the mask holds REPORT_OVERRUN disabled. Otherwise nothing happens (R168, R176). That the freed
place is the tail of the queue, and that the report names no element, port or route, is the model's choice: log entry
33. -/
def Obligations.ReportSendSendsHead : Prop :=
  ∀ s : State,
    (s.linkC.state ≠ .up ∨ s.queue = [] → exec .reportSend s = .next s) ∧
    (∀ (r : Report) (rest : List Report), s.linkC.state = .up → s.queue = r :: rest →
      exec .reportSend s = .next
        { s with
          sent := s.sent ++ [⟨.c, .report s.seq r⟩]
          seq := s.seq + 1
          notice := false
          lost := if s.notice = true ∧ s.mask.getLsbD 5 = true then 0 else s.lost
          queue := if s.notice = true ∧ s.mask.getLsbD 5 = true then
              rest ++ [.fault { cls := .reportOverrun, designation := 0, port := none, route := none,
                                cause := BitVec.ofNat 16 s.lost }]
            else rest })

/-- RATE_TICK of rate k, at a base tick whose count is a multiple of 2^k, counts every running timer of that rate once,
but for one started at this same instant, and nothing else; at any other time it does nothing (R58, R60; log entry 3). -/
def Claims.RateTickCountsTimers : Prop :=
  ∀ (k : Nat) (s : State),
    (¬ (s.atTick = true ∧ k < 8 ∧ s.tick % 2 ^ k = 0) → exec (.rateTick k) s = .next s) ∧
    (s.atTick = true → k < 8 → s.tick % 2 ^ k = 0 →
      let count (t : Timer) : Timer :=
        if t.rate = k ∧ t.expired = false ∧ t.bornAt ≠ some s.tick then
          { t with count := t.count + 1, expired := decide (t.count = 0xFF) }
        else t
      ∃ t, exec (.rateTick k) s = .next t ∧
        (∀ i, t.timerOf i = (s.timerOf i).map (fun h => { h with timer := count h.timer })) ∧
        (∀ c, t.ctxTimer c = (s.ctxTimer c).map count) ∧ t.auxTimer = s.auxTimer.map count ∧
        t = { s with timers := t.timers, ctxTimers := t.ctxTimers, auxTimer := t.auxTimer })

/-! ### Rules of the shared operations -/

/-- The setting of a required time of T ms: the smallest rate k whose N_k, the next whole number of periods plus one, is
at most 256, with the preload 256 - N_k; where no rate has one, rate 7 with preload 0 and the CLAMPED mark (R58, R63,
R64). -/
def Obligations.TimerSettingIsSmallestRate : Prop :=
  ∀ tms : Nat,
    let n (k : Nat) := (tms + 10 * 2 ^ k - 1) / (10 * 2 ^ k) + 1
    (∀ k, k < 8 → n k ≤ 256 → (∀ j, j < k → 256 < n j) →
      timerSetting tms = { rate := k, preload := 256 - n k, clamped := false }) ∧
    ((∀ k, k < 8 → 256 < n k) → timerSetting tms = { rate := 7, preload := 0, clamped := true })

/-- A timer started with preload P expires at its (256 - P)-th counted tick and at no earlier one (R60). -/
def Claims.TimerExpiresAfterItsCount : Prop :=
  ∀ (s : State) (x : Setting) (ticks : List Nat), x.preload < 256 → (∀ t ∈ ticks, t ≠ s.tick) →
    (ticks.foldl (fun t tick => t.count1 x.rate tick) (s.startTimer x)).expired =
      decide (256 - x.preload ≤ ticks.length)

/-- Rate ticks and the expiry of a timer (R58, R60). -/
def Obligations.RateTicksCountToExpiry : Prop :=
  Claims.RateTickCountsTimers ∧ Claims.TimerExpiresAfterItsCount

/-- A report that the mask disables is not queued. An Element Report takes the place of a queued one of the same element.
Any other report takes a new place at the tail while fewer than 32 wait, and is lost otherwise: REPORT_OVERRUN is
latched, the lost count rises by one up to 65,535 and, where the mask enables REPORT_OVERRUN, the notice mark is set
(R173, R174, R176). That two Element Reports are of the same element where they carry the same element index, also across
a change of tables, is the model's choice: log entry 37. -/
def Obligations.ReportQueueTakesOrLoses : Prop :=
  ∀ (s : State) (r : Report),
    let lost : State := { s with
      latches := s.latches ||| 0x20
      lost := if s.lost < 65535 then s.lost + 1 else 65535
      notice := if s.mask.getLsbD 5 then true else s.notice }
    (maskAllows s.mask r = false → s.offer r = s) ∧
    (∀ er, maskAllows s.mask r = true → r = .element er → (∃ q ∈ s.queue, q.isElement er.elem = true) →
      s.offer r = { s with queue := s.queue.map (fun q => if q.isElement er.elem then r else q) }) ∧
    (maskAllows s.mask r = true → (∀ er, r = .element er → ∀ q ∈ s.queue, q.isElement er.elem = false) →
      s.offer r = if s.queue.length < 32 then { s with queue := s.queue ++ [r] } else lost)

/-- The condition set of an element, derived from its record, its supervision, its blocked mark, its link and its
transaction: each of the eighteen conditions holds exactly while its derivation does, and none where the index holds no
element (R4, R5, R25, R30). -/
def Claims.ConditionsAreDerived : Prop :=
  ∀ (s : State) (e : Nat),
    (s.kind e = none → ∀ c, s.holds e c = false) ∧
    (∀ k, s.kind e = some k →
      let x := s.elem e
      let up := ∃ l, s.elemLink e = some l ∧ (s.link l.port).state = .up
      let border := k = .border ∧ x.heard = true ∧ up ∧ x.nbr ≠ .unknown
      (s.holds e .inControl = true ↔ border ∨ k ≠ .border ∧ x.deadline ≠ none ∧ x.reported ≠ .unknown) ∧
      (s.holds e .vacant = true ↔
        k = .sect ∧ x.reported = .vacant ∧ x.restore = false ∨ border ∧ x.nbr = .vacant) ∧
      (s.holds e .occupied = true ↔
        k = .sect ∧ (x.reported = .occupied ∨ x.reported = .disturbed) ∨ border ∧ x.nbr = .occupied) ∧
      (s.holds e .atLeft = true ↔ k = .point ∧ x.reported = .left) ∧
      (s.holds e .atRight = true ↔ k = .point ∧ x.reported = .right) ∧
      (s.holds e .moving = true ↔ k = .point ∧ x.reported = .moving) ∧
      (s.holds e .dangerProven = true ↔ k = .signal ∧ x.reported = .dangerLit) ∧
      (s.holds e .proceedShown = true ↔ k = .signal ∧ x.reported = .proceedLit) ∧
      (s.holds e .lampFault = true ↔ k = .signal ∧ x.reported = .dark) ∧
      (s.holds e .routeLocked = true ↔ x.lockOwner ≠ none) ∧
      (s.holds e .flankClaimed = true ↔ (k = .point ∨ k = .signal) ∧ 0 < x.claims) ∧
      (s.holds e .blocked = true ↔ s.isBlocked e = true) ∧
      (s.holds e .fault = true ↔ k = .point ∧ x.fault = true) ∧
      (s.holds e .restorePending = true ↔ k = .sect ∧ x.restore = true) ∧
      (s.holds e .borderHeld = true ↔ k = .border ∧ (s.transOf e).state = .heldOut) ∧
      (s.holds e .inboundHeld = true ↔ k = .border ∧ (s.transOf e).state = .inHeld) ∧
      (s.holds e .entryProven = true ↔ border ∧ x.nbrEntryProven = true) ∧
      (s.holds e .onwardClear = true ↔ border ∧ x.nbrOnwardClear = true))

/-- Bit n of a condition set is set where the condition of number n holds, and a test of kind 1, 2 or 3 on a set passes
where all, none or any of the conditions it names hold (R48, section 12.7). -/
def Claims.ConditionsTravelAndTest : Prop :=
  ∀ (s : State) (e : Nat) (set : BitVec 24),
    (∀ c : Cond, (s.condSet e).getLsbD c.num = s.holds e c) ∧
    (∀ n, 18 ≤ n → (s.condSet e).getLsbD n = false) ∧
    (s.passesTest e 1 set = true ↔ ∀ c : Cond, set.getLsbD c.num = true → s.holds e c = true) ∧
    (s.passesTest e 2 set = true ↔ ∀ c : Cond, set.getLsbD c.num = true → s.holds e c = false) ∧
    (s.passesTest e 3 set = true ↔ ∃ c : Cond, set.getLsbD c.num = true ∧ s.holds e c = true)

/-- The derivation of the conditions, their numbers and their tests (R4, R5, R25, R30, R48, section 12.7). -/
def Obligations.ConditionSetsAndTests : Prop :=
  Claims.ConditionsAreDerived ∧ Claims.ConditionsTravelAndTest

/-- An element of group g of a route: of a PATH entry of the group or, with group 1, the start SIGNAL (R131). -/
def Claims.inGroup (s : State) (r g e : Nat) : Prop :=
  (∃ x ∈ pathOf s.store (s.rrow r), x.group = g ∧ x.target = e) ∨
    (g = 1 ∧ e = (s.rrow r).start ∧ s.kind e = some .signal)

/-- The release of a group unlocks the elements of its PATH entries, and with group 1 a start SIGNAL, drops the claims of
its flank records, and makes the group RELEASED; every other lock and every other route stays (R131). -/
def Claims.GroupReleaseUnlocksElements : Prop :=
  ∀ (s : State) (r g : Nat), 1 ≤ g → g ≤ (s.route r).groups.length →
    let t := s.releaseGroup r g
    (∀ e, Claims.inGroup s r g e → (t.elem e).lockOwner = none) ∧
    (∀ e, ¬ Claims.inGroup s r g e → (t.elem e).lockOwner = (s.elem e).lockOwner) ∧
    (∀ e, (t.elem e).claims =
      (s.elem e).claims - ((s.route r).flank.filter (fun f => f.elem == e && f.group == .group g)).length) ∧
    (t.route r).flank = (s.route r).flank.filter (fun f => f.group != .group g) ∧
    (t.route r).groupState g = .released ∧
    (∀ h, h ≠ g → 1 ≤ h → (t.route r).groupState h = (s.route r).groupState h) ∧
    (∀ q, q ≠ r → t.route q = s.route q) ∧ (∀ e, (t.elem e).bare = (s.elem e).bare) ∧
    t = { s with elems := t.elems, routes := t.routes }

/-- The release conditions of group g of a route come to hold at the event from s to t. The group is OCCUPIED_SEEN and
holds VACANT after the event. Below the last group, its successor was entered before and the group becomes VACANT, or its
successor is RESERVED and one of its sections becomes OCCUPIED. Of the last group, the berth holds OCCUPIED after the
event, and before it the group was not VACANT or the berth not OCCUPIED (R128, R129, R130). -/
def Claims.releaseDue (s t : State) (r g : Nat) : Prop :=
  let w := s.rrow r
  (s.route r).groupState g = .seen ∧ t.groupVacant r g = true ∧
    if g < w.groups then
      ((s.route r).groupState (g + 1)).entered = true ∧ s.groupVacant r g = false ∨
      (s.route r).groupState (g + 1) = .reserved ∧ ∃ x ∈ s.pathSections r, x.group = g + 1 ∧
        s.firstSection r ≠ some x.target ∧ s.holds x.target .occupied = false ∧ t.holds x.target .occupied = true
    else t.holds w.berth .occupied = true ∧ (s.groupVacant r g = false ∨ s.holds w.berth .occupied = false)

/-- STATUS_TELEGRAM and BORDER_STATUS at the groups of a route in IN_USE that no context and no wait list names. A group
whose release conditions come to hold at the event is released: its elements are unlocked, its claims dropped, and
GROUP_RELEASED is raised; an OCCUPIED_SEEN group whose conditions do not keeps its state (R129, R130, R131). While another
group is still to be released the route stays IN_USE. At the event of the last one, a route with overlap release time 0 is
released in full; where it is an EXIT route in HELD_OUT, over a BORDER element of no other route in hand, it sends Handback
and the transaction becomes IDLE. Any other is OVERLAP_HELD with purpose OVERLAP, holds a release timer or is DEFERRED, and
keeps its records of group OVERLAP (R132, R133, R134, R150). -/
def Claims.GroupsAreReleasedBehindTrain : Prop :=
  ∀ (i : Instr) (s : State), (∃ bytes, i = .statusTelegram bytes) ∨ (∃ l p, i = .borderStatus l p) →
    ∃ ev : Ev, exec i s = .next ev.settle ∧ ev.before = s ∧
      ∀ r g, (s.route r).state = .inUse → (∀ c x, s.ctx c = some x → x.route ≠ r) →
        (∀ w ∈ s.waitList, w.route ≠ r) → (s.route r).groups.length = (s.rrow r).groups →
        1 ≤ g → g ≤ (s.rrow r).groups →
        let t := ev.settle
        let w := s.rrow r
        let last := ∀ h, 1 ≤ h → h ≤ w.groups → (s.route r).groupState h = .released ∨ Claims.releaseDue s t r h
        let raises (x : RouteEvent) (d k : Bool) := ev.handToSetting.monitor.raised .route (.route
          { route := r, key := s.routeKeyOf r, event := x, origin := (s.route r).origin, deferred := d, clamped := k })
        ((s.route r).groupState g = .seen → ¬ Claims.releaseDue s t r g →
          (t.route r).groupState g = .seen ∧ (t.route r).state = .inUse) ∧
        (Claims.releaseDue s t r g →
          (∀ e, Claims.inGroup s r g e → (t.elem e).lockOwner = none) ∧
          (∀ e, (t.elem e).claims ≤
            (s.elem e).claims - ((s.route r).flank.filter (fun f => f.elem == e && f.group == .group g)).length) ∧
          (∀ f ∈ (t.route r).flank, f.group ≠ .group g) ∧ (∃ d k, raises (.groupReleased g) d k) ∧
          (¬ last → (t.route r).state = .inUse ∧ (t.route r).groupState g = .released) ∧
          (last → w.ovTime = 0 →
            t.route r = {} ∧ (∀ e, (t.elem e).lockOwner ≠ some r) ∧ raises .released false false ∧
            (∀ l ref, s.routeKind r = some .exit → s.elemLink w.dest = some l → (s.transOf w.dest).state = .heldOut →
              (s.transOf w.dest).reference = some ref →
              (∀ c x, s.ctx c = some x → (s.rrow x.route).start ≠ w.dest ∧ (s.rrow x.route).dest ≠ w.dest) →
              (∀ q, q ≠ r → (s.route q).state ≠ .free → (s.rrow q).dest ≠ w.dest) →
              t.transOf w.dest = {} ∧
                ⟨l.port, .transaction (plainTx .handback (s.pointByte w.dest) ref 0)⟩ ∈ t.sent.drop s.sent.length)) ∧
          (last → w.ovTime ≠ 0 →
            (t.route r).state = .overlapHeld ∧ (t.route r).purpose = .overlap ∧
            ((t.route r).timer ≠ none ∨ (t.route r).deferred = true) ∧
            (∀ h, 1 ≤ h → h ≤ w.groups → (t.route r).groupState h = .released) ∧
            ∀ f ∈ (s.route r).flank, f.group = .overlap → f ∈ (t.route r).flank))

/-- When a group of a route is released, what its release does, and what follows the last one (R128 to R134, R150). -/
def Obligations.GroupReleaseUnlocksItsElements : Prop :=
  Claims.GroupReleaseUnlocksElements ∧ Claims.GroupsAreReleasedBehindTrain

/-- The check values of the two cyclic redundancy checks over the ASCII digits 1 to 9 (R189, R193). -/
def Claims.CrcCheckValues : Prop :=
  crc16 [0x31, 0x32, 0x33, 0x34, 0x35, 0x36, 0x37, 0x38, 0x39] = 0x29B1 ∧
  crc32 [0x31, 0x32, 0x33, 0x34, 0x35, 0x36, 0x37, 0x38, 0x39] = 0xCBF43926

/-- Every frame whose payload fits the length field is received as it was sent (R189, section 12.1). -/
def Claims.FramesAreReceivedAsSent : Prop :=
  ∀ f : Frame, f.payload.length < 65536 → parseFrame f.bytes = some f

/-- The common frame and the two cyclic redundancy checks (R189, R193). -/
def Obligations.FramesAndChecks : Prop :=
  Claims.CrcCheckValues ∧ Claims.FramesAreReceivedAsSent

/-- Decoding the bytes of a well-formed telegram command on its port gives the command back (R166, R189, R191, sections
12.1, 12.3 and 12.5). -/
def Obligations.DecodeOfEncodedTelegram : Prop :=
  ∀ (i : Instr) (port : Port) (bytes : List Byte), i.wf = true → encodeTelegram i = some (port, bytes) →
    decodeTelegram port bytes = i
end

