-- ==== Sys2Proof/Laws/Tbl.lean ====
section
/-! SUPPORT. Sparse tables and the Table Store: what is read after a write, and that every write keeps the canonical
form. -/

namespace Sys2Proof.Machine

variable {α : Type}

theorem tblGet_put (d : α) (t : Tbl α) (i k : Nat) (v : α) :
    tblGet d (tblPut t i v) k = if k = i then v else tblGet d t k := by
  induction t with
  | nil => simp [tblPut, tblGet]
  | cons h t ih =>
    obtain ⟨j, w⟩ := h
    simp only [tblPut]
    by_cases hij : i < j
    · simp [hij, tblGet]
    · by_cases hj : i = j
      · subst hj
        by_cases hk : k = i <;> simp [tblGet, hk]
      · simp only [hij, hj, if_false, tblGet, ih]
        by_cases hk : k = j
        · subst hk
          have hki : ¬ k = i := fun e => hj e.symm
          simp [hki]
        · simp [hk]

theorem tblGet_filter_ne (d : α) (t : Tbl α) (i k : Nat) :
    tblGet d (t.filter (fun p => p.1 != i)) k = if k = i then d else tblGet d t k := by
  induction t with
  | nil => simp [tblGet]
  | cons h t ih =>
    obtain ⟨j, w⟩ := h
    by_cases hj : j = i
    · subst hj
      by_cases hk : k = j <;> simp_all [tblGet]
    · by_cases hk : k = j
      · subst hk; simp [tblGet, hj]
      · simp_all [tblGet]

/-- What is read after a write: the value written, at its key; elsewhere what was read before. -/
@[simp] theorem tblGet_set [DecidableEq α] (d : α) (t : Tbl α) (i k : Nat) (v : α) :
    tblGet d (tblSet d t i v) k = if k = i then v else tblGet d t k := by
  unfold tblSet
  split
  · next h => subst h; exact tblGet_filter_ne ..
  · exact tblGet_put ..

@[simp] theorem tblGet_nil (d : α) (k : Nat) : tblGet d ([] : Tbl α) k = d := rfl

theorem tblGet_map (d : α) (f : α → α) (hf : f d = d) (t : Tbl α) (k : Nat) :
    tblGet d (t.map (fun p => (p.1, f p.2))) k = f (tblGet d t k) := by
  induction t with
  | nil => simp [tblGet, hf]
  | cons h t ih =>
    obtain ⟨j, w⟩ := h
    by_cases hk : k = j <;> simp_all [tblGet]

theorem tblGet_of_not_mem (d : α) (t : Tbl α) (k : Nat) (h : k ∉ tblKeys t) : tblGet d t k = d := by
  induction t with
  | nil => rfl
  | cons x t ih =>
    obtain ⟨j, w⟩ := x
    simp only [tblKeys, List.map_cons, List.mem_cons, not_or] at h
    simp only [tblGet, h.1, if_false]
    exact ih h.2

/-! ### The canonical form -/

section Canonical

variable [DecidableEq α]

theorem tblWfFrom_mono (d : α) (t : Tbl α) (lo lo' : Nat) (h : lo' ≤ lo) (hw : tblWfFrom d lo t = true) :
    tblWfFrom d lo' t = true := by
  cases t with
  | nil => rfl
  | cons x t =>
    simp only [tblWfFrom, Bool.and_eq_true, decide_eq_true_eq] at hw ⊢
    exact ⟨⟨le_trans h hw.1.1, hw.1.2⟩, hw.2⟩

theorem tblWfFrom_put (d : α) (t : Tbl α) (lo i : Nat) (v : α) (hv : v ≠ d) (hi : lo ≤ i)
    (hw : tblWfFrom d lo t = true) : tblWfFrom d lo (tblPut t i v) = true := by
  induction t generalizing lo with
  | nil => simp [tblPut, tblWfFrom, hv, hi]
  | cons x t ih =>
    obtain ⟨j, w⟩ := x
    simp only [tblWfFrom, Bool.and_eq_true, decide_eq_true_eq] at hw
    simp only [tblPut]
    split
    · next h => simp only [tblWfFrom, Bool.and_eq_true, decide_eq_true_eq]; exact ⟨⟨hi, hv⟩, ⟨h, hw.1.2⟩, hw.2⟩
    · split
      · next h => subst h; simp only [tblWfFrom, Bool.and_eq_true, decide_eq_true_eq]; exact ⟨⟨hi, hv⟩, hw.2⟩
      · next h h' =>
        simp only [tblWfFrom, Bool.and_eq_true, decide_eq_true_eq]
        exact ⟨hw.1, ih _ (by omega) hw.2⟩

theorem tblWfFrom_filter (d : α) (t : Tbl α) (lo i : Nat) (hw : tblWfFrom d lo t = true) :
    tblWfFrom d lo (t.filter (fun p => p.1 != i)) = true := by
  induction t generalizing lo with
  | nil => rfl
  | cons x t ih =>
    obtain ⟨j, w⟩ := x
    simp only [tblWfFrom, Bool.and_eq_true, decide_eq_true_eq] at hw
    by_cases h : j = i
    · simp only [h, List.filter_cons, bne_self_eq_false, if_false, Bool.false_eq_true]
      exact tblWfFrom_mono d _ (j + 1) lo (by omega) (ih _ hw.2)
    · simp only [List.filter_cons, bne_iff_ne, ne_eq, h, not_false_eq_true, if_true, tblWfFrom, Bool.and_eq_true,
        decide_eq_true_eq]
      exact ⟨hw.1, ih _ hw.2⟩

/-- A write keeps the canonical form. -/
theorem tblWf_set (d : α) (t : Tbl α) (i : Nat) (v : α) (hw : tblWf d t = true) : tblWf d (tblSet d t i v) = true := by
  unfold tblSet tblWf at *
  split
  · exact tblWfFrom_filter d t 0 i hw
  · next h => exact tblWfFrom_put d t 0 i v h (Nat.zero_le _) hw

end Canonical

/-! ### The Table Store -/

@[simp] theorem Memory.read_write (m : Memory) (a k : Nat) (b : Byte) :
    Memory.read (Memory.write m a b) k = if k = a then b else Memory.read m k := tblGet_set ..

theorem Memory.wf_write (m : Memory) (a : Nat) (b : Byte) (h : Memory.wf m = true) :
    Memory.wf (Memory.write m a b) = true := tblWf_set _ _ _ _ h

theorem Memory.wf_writeAll (bs : List Byte) (m : Memory) (a : Nat) (h : Memory.wf m = true) :
    Memory.wf (Memory.writeAll m a bs) = true := by
  induction bs generalizing m a with
  | nil => exact h
  | cons b bs ih => exact ih _ _ (Memory.wf_write m a b h)

/-- What is read after bytes are written at consecutive addresses. -/
theorem Memory.read_writeAll (bs : List Byte) (m : Memory) (a k : Nat) :
    Memory.read (Memory.writeAll m a bs) k =
      if a ≤ k ∧ k < a + bs.length then bs.getD (k - a) 0 else Memory.read m k := by
  induction bs generalizing m a with
  | nil => simp only [Memory.writeAll, List.length_nil, Nat.add_zero]; rw [if_neg (by omega)]
  | cons b bs ih =>
    rw [Memory.writeAll, ih, Memory.read_write]
    by_cases h1 : k = a
    · subst h1
      rw [if_neg (by omega), if_pos rfl, if_pos (by simp)]
      simp
    · by_cases h2 : a + 1 ≤ k ∧ k < a + 1 + bs.length
      · rw [if_pos h2, if_pos (by simp only [List.length_cons]; omega)]
        have : k - a = (k - (a + 1)) + 1 := by omega
        rw [this, List.getD_cons_succ]
      · rw [if_neg h2, if_neg h1, if_neg (by simp only [List.length_cons]; omega)]

end Sys2Proof.Machine
end

