-- ==== Sys2Proof/Laws/State.lean ====
section
/-! SUPPORT. One lemma per update of State: the fields it does not write stand as before, and a record that was written
reads as written. -/

namespace Sys2Proof.Machine

@[simp] theorem State.setElem_others (s : State) (e : Nat) (x : Elem) :
    (s.setElem e x).pending = s.pending ∧ (s.setElem e x).store = s.store ∧
    (s.setElem e x).storedCrc = s.storedCrc ∧ (s.setElem e x).tablesValid = s.tablesValid ∧
    (s.setElem e x).blocked = s.blocked ∧ (s.setElem e x).auxCounter = s.auxCounter ∧
    (s.setElem e x).mode = s.mode ∧ (s.setElem e x).safeN = s.safeN ∧
    (s.setElem e x).startupDeadline = s.startupDeadline ∧ (s.setElem e x).restartPending = s.restartPending ∧
    (s.setElem e x).life = s.life ∧ (s.setElem e x).dmap = s.dmap ∧ (s.setElem e x).linkC = s.linkC ∧
    (s.setElem e x).linkF = s.linkF ∧ (s.setElem e x).linkB1 = s.linkB1 ∧ (s.setElem e x).linkB2 = s.linkB2 ∧
    (s.setElem e x).requests = s.requests ∧ (s.setElem e x).contexts = s.contexts ∧
    (s.setElem e x).routes = s.routes ∧ (s.setElem e x).tick = s.tick ∧ (s.setElem e x).atTick = s.atTick ∧
    (s.setElem e x).timers = s.timers ∧ (s.setElem e x).waitList = s.waitList ∧
    (s.setElem e x).ctxTimers = s.ctxTimers ∧ (s.setElem e x).auxTimer = s.auxTimer ∧
    (s.setElem e x).trans = s.trans ∧ (s.setElem e x).offerRef1 = s.offerRef1 ∧
    (s.setElem e x).offerRef2 = s.offerRef2 ∧ (s.setElem e x).auxPending = s.auxPending ∧
    (s.setElem e x).queue = s.queue ∧ (s.setElem e x).latches = s.latches ∧
    (s.setElem e x).lostPorts = s.lostPorts ∧ (s.setElem e x).mask = s.mask ∧ (s.setElem e x).seq = s.seq ∧
    (s.setElem e x).lost = s.lost ∧ (s.setElem e x).notice = s.notice ∧ (s.setElem e x).events = s.events ∧
    (s.setElem e x).sent = s.sent := by
  and_intros <;> rfl

@[simp] theorem State.modElem_others (s : State) (e : Nat) (f : Elem → Elem) :
    (s.modElem e f).pending = s.pending ∧ (s.modElem e f).store = s.store ∧
    (s.modElem e f).storedCrc = s.storedCrc ∧ (s.modElem e f).tablesValid = s.tablesValid ∧
    (s.modElem e f).blocked = s.blocked ∧ (s.modElem e f).auxCounter = s.auxCounter ∧
    (s.modElem e f).mode = s.mode ∧ (s.modElem e f).safeN = s.safeN ∧
    (s.modElem e f).startupDeadline = s.startupDeadline ∧ (s.modElem e f).restartPending = s.restartPending ∧
    (s.modElem e f).life = s.life ∧ (s.modElem e f).dmap = s.dmap ∧ (s.modElem e f).linkC = s.linkC ∧
    (s.modElem e f).linkF = s.linkF ∧ (s.modElem e f).linkB1 = s.linkB1 ∧ (s.modElem e f).linkB2 = s.linkB2 ∧
    (s.modElem e f).requests = s.requests ∧ (s.modElem e f).contexts = s.contexts ∧
    (s.modElem e f).routes = s.routes ∧ (s.modElem e f).tick = s.tick ∧ (s.modElem e f).atTick = s.atTick ∧
    (s.modElem e f).timers = s.timers ∧ (s.modElem e f).waitList = s.waitList ∧
    (s.modElem e f).ctxTimers = s.ctxTimers ∧ (s.modElem e f).auxTimer = s.auxTimer ∧
    (s.modElem e f).trans = s.trans ∧ (s.modElem e f).offerRef1 = s.offerRef1 ∧
    (s.modElem e f).offerRef2 = s.offerRef2 ∧ (s.modElem e f).auxPending = s.auxPending ∧
    (s.modElem e f).queue = s.queue ∧ (s.modElem e f).latches = s.latches ∧
    (s.modElem e f).lostPorts = s.lostPorts ∧ (s.modElem e f).mask = s.mask ∧ (s.modElem e f).seq = s.seq ∧
    (s.modElem e f).lost = s.lost ∧ (s.modElem e f).notice = s.notice ∧ (s.modElem e f).events = s.events ∧
    (s.modElem e f).sent = s.sent := by
  and_intros <;> rfl

@[simp] theorem State.setBlocked_others (s : State) (e : Nat) (b : Bool) :
    (s.setBlocked e b).pending = s.pending ∧ (s.setBlocked e b).store = s.store ∧
    (s.setBlocked e b).storedCrc = s.storedCrc ∧ (s.setBlocked e b).tablesValid = s.tablesValid ∧
    (s.setBlocked e b).auxCounter = s.auxCounter ∧ (s.setBlocked e b).mode = s.mode ∧
    (s.setBlocked e b).safeN = s.safeN ∧ (s.setBlocked e b).startupDeadline = s.startupDeadline ∧
    (s.setBlocked e b).restartPending = s.restartPending ∧ (s.setBlocked e b).life = s.life ∧
    (s.setBlocked e b).elems = s.elems ∧ (s.setBlocked e b).dmap = s.dmap ∧ (s.setBlocked e b).linkC = s.linkC ∧
    (s.setBlocked e b).linkF = s.linkF ∧ (s.setBlocked e b).linkB1 = s.linkB1 ∧
    (s.setBlocked e b).linkB2 = s.linkB2 ∧ (s.setBlocked e b).requests = s.requests ∧
    (s.setBlocked e b).contexts = s.contexts ∧ (s.setBlocked e b).routes = s.routes ∧
    (s.setBlocked e b).tick = s.tick ∧ (s.setBlocked e b).atTick = s.atTick ∧
    (s.setBlocked e b).timers = s.timers ∧ (s.setBlocked e b).waitList = s.waitList ∧
    (s.setBlocked e b).ctxTimers = s.ctxTimers ∧ (s.setBlocked e b).auxTimer = s.auxTimer ∧
    (s.setBlocked e b).trans = s.trans ∧ (s.setBlocked e b).offerRef1 = s.offerRef1 ∧
    (s.setBlocked e b).offerRef2 = s.offerRef2 ∧ (s.setBlocked e b).auxPending = s.auxPending ∧
    (s.setBlocked e b).queue = s.queue ∧ (s.setBlocked e b).latches = s.latches ∧
    (s.setBlocked e b).lostPorts = s.lostPorts ∧ (s.setBlocked e b).mask = s.mask ∧
    (s.setBlocked e b).seq = s.seq ∧ (s.setBlocked e b).lost = s.lost ∧ (s.setBlocked e b).notice = s.notice ∧
    (s.setBlocked e b).events = s.events ∧ (s.setBlocked e b).sent = s.sent := by
  and_intros <;> rfl

@[simp] theorem State.setTrans_others (s : State) (e : Nat) (x : TransRec) :
    (s.setTrans e x).pending = s.pending ∧ (s.setTrans e x).store = s.store ∧
    (s.setTrans e x).storedCrc = s.storedCrc ∧ (s.setTrans e x).tablesValid = s.tablesValid ∧
    (s.setTrans e x).blocked = s.blocked ∧ (s.setTrans e x).auxCounter = s.auxCounter ∧
    (s.setTrans e x).mode = s.mode ∧ (s.setTrans e x).safeN = s.safeN ∧
    (s.setTrans e x).startupDeadline = s.startupDeadline ∧ (s.setTrans e x).restartPending = s.restartPending ∧
    (s.setTrans e x).life = s.life ∧ (s.setTrans e x).elems = s.elems ∧ (s.setTrans e x).dmap = s.dmap ∧
    (s.setTrans e x).linkC = s.linkC ∧ (s.setTrans e x).linkF = s.linkF ∧ (s.setTrans e x).linkB1 = s.linkB1 ∧
    (s.setTrans e x).linkB2 = s.linkB2 ∧ (s.setTrans e x).requests = s.requests ∧
    (s.setTrans e x).contexts = s.contexts ∧ (s.setTrans e x).routes = s.routes ∧ (s.setTrans e x).tick = s.tick ∧
    (s.setTrans e x).atTick = s.atTick ∧ (s.setTrans e x).timers = s.timers ∧
    (s.setTrans e x).waitList = s.waitList ∧ (s.setTrans e x).ctxTimers = s.ctxTimers ∧
    (s.setTrans e x).auxTimer = s.auxTimer ∧ (s.setTrans e x).offerRef1 = s.offerRef1 ∧
    (s.setTrans e x).offerRef2 = s.offerRef2 ∧ (s.setTrans e x).auxPending = s.auxPending ∧
    (s.setTrans e x).queue = s.queue ∧ (s.setTrans e x).latches = s.latches ∧
    (s.setTrans e x).lostPorts = s.lostPorts ∧ (s.setTrans e x).mask = s.mask ∧ (s.setTrans e x).seq = s.seq ∧
    (s.setTrans e x).lost = s.lost ∧ (s.setTrans e x).notice = s.notice ∧ (s.setTrans e x).events = s.events ∧
    (s.setTrans e x).sent = s.sent := by
  and_intros <;> rfl

@[simp] theorem State.setRoute_others (s : State) (r : Nat) (x : RouteRec) :
    (s.setRoute r x).pending = s.pending ∧ (s.setRoute r x).store = s.store ∧
    (s.setRoute r x).storedCrc = s.storedCrc ∧ (s.setRoute r x).tablesValid = s.tablesValid ∧
    (s.setRoute r x).blocked = s.blocked ∧ (s.setRoute r x).auxCounter = s.auxCounter ∧
    (s.setRoute r x).mode = s.mode ∧ (s.setRoute r x).safeN = s.safeN ∧
    (s.setRoute r x).startupDeadline = s.startupDeadline ∧ (s.setRoute r x).restartPending = s.restartPending ∧
    (s.setRoute r x).life = s.life ∧ (s.setRoute r x).elems = s.elems ∧ (s.setRoute r x).dmap = s.dmap ∧
    (s.setRoute r x).linkC = s.linkC ∧ (s.setRoute r x).linkF = s.linkF ∧ (s.setRoute r x).linkB1 = s.linkB1 ∧
    (s.setRoute r x).linkB2 = s.linkB2 ∧ (s.setRoute r x).requests = s.requests ∧
    (s.setRoute r x).contexts = s.contexts ∧ (s.setRoute r x).tick = s.tick ∧ (s.setRoute r x).atTick = s.atTick ∧
    (s.setRoute r x).timers = s.timers ∧ (s.setRoute r x).waitList = s.waitList ∧
    (s.setRoute r x).ctxTimers = s.ctxTimers ∧ (s.setRoute r x).auxTimer = s.auxTimer ∧
    (s.setRoute r x).trans = s.trans ∧ (s.setRoute r x).offerRef1 = s.offerRef1 ∧
    (s.setRoute r x).offerRef2 = s.offerRef2 ∧ (s.setRoute r x).auxPending = s.auxPending ∧
    (s.setRoute r x).queue = s.queue ∧ (s.setRoute r x).latches = s.latches ∧
    (s.setRoute r x).lostPorts = s.lostPorts ∧ (s.setRoute r x).mask = s.mask ∧ (s.setRoute r x).seq = s.seq ∧
    (s.setRoute r x).lost = s.lost ∧ (s.setRoute r x).notice = s.notice ∧ (s.setRoute r x).events = s.events ∧
    (s.setRoute r x).sent = s.sent := by
  and_intros <;> rfl

@[simp] theorem State.modRoute_others (s : State) (r : Nat) (f : RouteRec → RouteRec) :
    (s.modRoute r f).pending = s.pending ∧ (s.modRoute r f).store = s.store ∧
    (s.modRoute r f).storedCrc = s.storedCrc ∧ (s.modRoute r f).tablesValid = s.tablesValid ∧
    (s.modRoute r f).blocked = s.blocked ∧ (s.modRoute r f).auxCounter = s.auxCounter ∧
    (s.modRoute r f).mode = s.mode ∧ (s.modRoute r f).safeN = s.safeN ∧
    (s.modRoute r f).startupDeadline = s.startupDeadline ∧ (s.modRoute r f).restartPending = s.restartPending ∧
    (s.modRoute r f).life = s.life ∧ (s.modRoute r f).elems = s.elems ∧ (s.modRoute r f).dmap = s.dmap ∧
    (s.modRoute r f).linkC = s.linkC ∧ (s.modRoute r f).linkF = s.linkF ∧ (s.modRoute r f).linkB1 = s.linkB1 ∧
    (s.modRoute r f).linkB2 = s.linkB2 ∧ (s.modRoute r f).requests = s.requests ∧
    (s.modRoute r f).contexts = s.contexts ∧ (s.modRoute r f).tick = s.tick ∧ (s.modRoute r f).atTick = s.atTick ∧
    (s.modRoute r f).timers = s.timers ∧ (s.modRoute r f).waitList = s.waitList ∧
    (s.modRoute r f).ctxTimers = s.ctxTimers ∧ (s.modRoute r f).auxTimer = s.auxTimer ∧
    (s.modRoute r f).trans = s.trans ∧ (s.modRoute r f).offerRef1 = s.offerRef1 ∧
    (s.modRoute r f).offerRef2 = s.offerRef2 ∧ (s.modRoute r f).auxPending = s.auxPending ∧
    (s.modRoute r f).queue = s.queue ∧ (s.modRoute r f).latches = s.latches ∧
    (s.modRoute r f).lostPorts = s.lostPorts ∧ (s.modRoute r f).mask = s.mask ∧ (s.modRoute r f).seq = s.seq ∧
    (s.modRoute r f).lost = s.lost ∧ (s.modRoute r f).notice = s.notice ∧ (s.modRoute r f).events = s.events ∧
    (s.modRoute r f).sent = s.sent := by
  and_intros <;> rfl

@[simp] theorem State.setCtx_others (s : State) (c : Nat) (x : Option Ctx) :
    (s.setCtx c x).pending = s.pending ∧ (s.setCtx c x).store = s.store ∧ (s.setCtx c x).storedCrc = s.storedCrc ∧
    (s.setCtx c x).tablesValid = s.tablesValid ∧ (s.setCtx c x).blocked = s.blocked ∧
    (s.setCtx c x).auxCounter = s.auxCounter ∧ (s.setCtx c x).mode = s.mode ∧ (s.setCtx c x).safeN = s.safeN ∧
    (s.setCtx c x).startupDeadline = s.startupDeadline ∧ (s.setCtx c x).restartPending = s.restartPending ∧
    (s.setCtx c x).life = s.life ∧ (s.setCtx c x).elems = s.elems ∧ (s.setCtx c x).dmap = s.dmap ∧
    (s.setCtx c x).linkC = s.linkC ∧ (s.setCtx c x).linkF = s.linkF ∧ (s.setCtx c x).linkB1 = s.linkB1 ∧
    (s.setCtx c x).linkB2 = s.linkB2 ∧ (s.setCtx c x).requests = s.requests ∧ (s.setCtx c x).routes = s.routes ∧
    (s.setCtx c x).tick = s.tick ∧ (s.setCtx c x).atTick = s.atTick ∧ (s.setCtx c x).timers = s.timers ∧
    (s.setCtx c x).waitList = s.waitList ∧ (s.setCtx c x).ctxTimers = s.ctxTimers ∧
    (s.setCtx c x).auxTimer = s.auxTimer ∧ (s.setCtx c x).trans = s.trans ∧
    (s.setCtx c x).offerRef1 = s.offerRef1 ∧ (s.setCtx c x).offerRef2 = s.offerRef2 ∧
    (s.setCtx c x).auxPending = s.auxPending ∧ (s.setCtx c x).queue = s.queue ∧
    (s.setCtx c x).latches = s.latches ∧ (s.setCtx c x).lostPorts = s.lostPorts ∧ (s.setCtx c x).mask = s.mask ∧
    (s.setCtx c x).seq = s.seq ∧ (s.setCtx c x).lost = s.lost ∧ (s.setCtx c x).notice = s.notice ∧
    (s.setCtx c x).events = s.events ∧ (s.setCtx c x).sent = s.sent := by
  and_intros <;> rfl

@[simp] theorem State.setTimer_others (s : State) (t : Nat) (x : Option HeldTimer) :
    (s.setTimer t x).pending = s.pending ∧ (s.setTimer t x).store = s.store ∧
    (s.setTimer t x).storedCrc = s.storedCrc ∧ (s.setTimer t x).tablesValid = s.tablesValid ∧
    (s.setTimer t x).blocked = s.blocked ∧ (s.setTimer t x).auxCounter = s.auxCounter ∧
    (s.setTimer t x).mode = s.mode ∧ (s.setTimer t x).safeN = s.safeN ∧
    (s.setTimer t x).startupDeadline = s.startupDeadline ∧ (s.setTimer t x).restartPending = s.restartPending ∧
    (s.setTimer t x).life = s.life ∧ (s.setTimer t x).elems = s.elems ∧ (s.setTimer t x).dmap = s.dmap ∧
    (s.setTimer t x).linkC = s.linkC ∧ (s.setTimer t x).linkF = s.linkF ∧ (s.setTimer t x).linkB1 = s.linkB1 ∧
    (s.setTimer t x).linkB2 = s.linkB2 ∧ (s.setTimer t x).requests = s.requests ∧
    (s.setTimer t x).contexts = s.contexts ∧ (s.setTimer t x).routes = s.routes ∧ (s.setTimer t x).tick = s.tick ∧
    (s.setTimer t x).atTick = s.atTick ∧ (s.setTimer t x).waitList = s.waitList ∧
    (s.setTimer t x).ctxTimers = s.ctxTimers ∧ (s.setTimer t x).auxTimer = s.auxTimer ∧
    (s.setTimer t x).trans = s.trans ∧ (s.setTimer t x).offerRef1 = s.offerRef1 ∧
    (s.setTimer t x).offerRef2 = s.offerRef2 ∧ (s.setTimer t x).auxPending = s.auxPending ∧
    (s.setTimer t x).queue = s.queue ∧ (s.setTimer t x).latches = s.latches ∧
    (s.setTimer t x).lostPorts = s.lostPorts ∧ (s.setTimer t x).mask = s.mask ∧ (s.setTimer t x).seq = s.seq ∧
    (s.setTimer t x).lost = s.lost ∧ (s.setTimer t x).notice = s.notice ∧ (s.setTimer t x).events = s.events ∧
    (s.setTimer t x).sent = s.sent := by
  and_intros <;> rfl

@[simp] theorem State.setCtxTimer_others (s : State) (c : Nat) (x : Option Timer) :
    (s.setCtxTimer c x).pending = s.pending ∧ (s.setCtxTimer c x).store = s.store ∧
    (s.setCtxTimer c x).storedCrc = s.storedCrc ∧ (s.setCtxTimer c x).tablesValid = s.tablesValid ∧
    (s.setCtxTimer c x).blocked = s.blocked ∧ (s.setCtxTimer c x).auxCounter = s.auxCounter ∧
    (s.setCtxTimer c x).mode = s.mode ∧ (s.setCtxTimer c x).safeN = s.safeN ∧
    (s.setCtxTimer c x).startupDeadline = s.startupDeadline ∧
    (s.setCtxTimer c x).restartPending = s.restartPending ∧ (s.setCtxTimer c x).life = s.life ∧
    (s.setCtxTimer c x).elems = s.elems ∧ (s.setCtxTimer c x).dmap = s.dmap ∧ (s.setCtxTimer c x).linkC = s.linkC ∧
    (s.setCtxTimer c x).linkF = s.linkF ∧ (s.setCtxTimer c x).linkB1 = s.linkB1 ∧
    (s.setCtxTimer c x).linkB2 = s.linkB2 ∧ (s.setCtxTimer c x).requests = s.requests ∧
    (s.setCtxTimer c x).contexts = s.contexts ∧ (s.setCtxTimer c x).routes = s.routes ∧
    (s.setCtxTimer c x).tick = s.tick ∧ (s.setCtxTimer c x).atTick = s.atTick ∧
    (s.setCtxTimer c x).timers = s.timers ∧ (s.setCtxTimer c x).waitList = s.waitList ∧
    (s.setCtxTimer c x).auxTimer = s.auxTimer ∧ (s.setCtxTimer c x).trans = s.trans ∧
    (s.setCtxTimer c x).offerRef1 = s.offerRef1 ∧ (s.setCtxTimer c x).offerRef2 = s.offerRef2 ∧
    (s.setCtxTimer c x).auxPending = s.auxPending ∧ (s.setCtxTimer c x).queue = s.queue ∧
    (s.setCtxTimer c x).latches = s.latches ∧ (s.setCtxTimer c x).lostPorts = s.lostPorts ∧
    (s.setCtxTimer c x).mask = s.mask ∧ (s.setCtxTimer c x).seq = s.seq ∧ (s.setCtxTimer c x).lost = s.lost ∧
    (s.setCtxTimer c x).notice = s.notice ∧ (s.setCtxTimer c x).events = s.events ∧
    (s.setCtxTimer c x).sent = s.sent := by
  and_intros <;> rfl

@[simp] theorem State.setLife_others (s : State) (a : Nat) (x : Option Byte) :
    (s.setLife a x).pending = s.pending ∧ (s.setLife a x).store = s.store ∧
    (s.setLife a x).storedCrc = s.storedCrc ∧ (s.setLife a x).tablesValid = s.tablesValid ∧
    (s.setLife a x).blocked = s.blocked ∧ (s.setLife a x).auxCounter = s.auxCounter ∧
    (s.setLife a x).mode = s.mode ∧ (s.setLife a x).safeN = s.safeN ∧
    (s.setLife a x).startupDeadline = s.startupDeadline ∧ (s.setLife a x).restartPending = s.restartPending ∧
    (s.setLife a x).elems = s.elems ∧ (s.setLife a x).dmap = s.dmap ∧ (s.setLife a x).linkC = s.linkC ∧
    (s.setLife a x).linkF = s.linkF ∧ (s.setLife a x).linkB1 = s.linkB1 ∧ (s.setLife a x).linkB2 = s.linkB2 ∧
    (s.setLife a x).requests = s.requests ∧ (s.setLife a x).contexts = s.contexts ∧
    (s.setLife a x).routes = s.routes ∧ (s.setLife a x).tick = s.tick ∧ (s.setLife a x).atTick = s.atTick ∧
    (s.setLife a x).timers = s.timers ∧ (s.setLife a x).waitList = s.waitList ∧
    (s.setLife a x).ctxTimers = s.ctxTimers ∧ (s.setLife a x).auxTimer = s.auxTimer ∧
    (s.setLife a x).trans = s.trans ∧ (s.setLife a x).offerRef1 = s.offerRef1 ∧
    (s.setLife a x).offerRef2 = s.offerRef2 ∧ (s.setLife a x).auxPending = s.auxPending ∧
    (s.setLife a x).queue = s.queue ∧ (s.setLife a x).latches = s.latches ∧
    (s.setLife a x).lostPorts = s.lostPorts ∧ (s.setLife a x).mask = s.mask ∧ (s.setLife a x).seq = s.seq ∧
    (s.setLife a x).lost = s.lost ∧ (s.setLife a x).notice = s.notice ∧ (s.setLife a x).events = s.events ∧
    (s.setLife a x).sent = s.sent := by
  and_intros <;> rfl

@[simp] theorem State.send_others (s : State) (p : Port) (x : Telegram) :
    (s.send p x).pending = s.pending ∧ (s.send p x).store = s.store ∧ (s.send p x).storedCrc = s.storedCrc ∧
    (s.send p x).tablesValid = s.tablesValid ∧ (s.send p x).blocked = s.blocked ∧
    (s.send p x).auxCounter = s.auxCounter ∧ (s.send p x).mode = s.mode ∧ (s.send p x).safeN = s.safeN ∧
    (s.send p x).startupDeadline = s.startupDeadline ∧ (s.send p x).restartPending = s.restartPending ∧
    (s.send p x).life = s.life ∧ (s.send p x).elems = s.elems ∧ (s.send p x).dmap = s.dmap ∧
    (s.send p x).linkC = s.linkC ∧ (s.send p x).linkF = s.linkF ∧ (s.send p x).linkB1 = s.linkB1 ∧
    (s.send p x).linkB2 = s.linkB2 ∧ (s.send p x).requests = s.requests ∧ (s.send p x).contexts = s.contexts ∧
    (s.send p x).routes = s.routes ∧ (s.send p x).tick = s.tick ∧ (s.send p x).atTick = s.atTick ∧
    (s.send p x).timers = s.timers ∧ (s.send p x).waitList = s.waitList ∧ (s.send p x).ctxTimers = s.ctxTimers ∧
    (s.send p x).auxTimer = s.auxTimer ∧ (s.send p x).trans = s.trans ∧ (s.send p x).offerRef1 = s.offerRef1 ∧
    (s.send p x).offerRef2 = s.offerRef2 ∧ (s.send p x).auxPending = s.auxPending ∧ (s.send p x).queue = s.queue ∧
    (s.send p x).latches = s.latches ∧ (s.send p x).lostPorts = s.lostPorts ∧ (s.send p x).mask = s.mask ∧
    (s.send p x).seq = s.seq ∧ (s.send p x).lost = s.lost ∧ (s.send p x).notice = s.notice ∧
    (s.send p x).events = s.events := by
  and_intros <;> rfl

@[simp] theorem State.latch_others (s : State) (l : Latch) :
    (s.latch l).pending = s.pending ∧ (s.latch l).store = s.store ∧ (s.latch l).storedCrc = s.storedCrc ∧
    (s.latch l).tablesValid = s.tablesValid ∧ (s.latch l).blocked = s.blocked ∧
    (s.latch l).auxCounter = s.auxCounter ∧ (s.latch l).mode = s.mode ∧ (s.latch l).safeN = s.safeN ∧
    (s.latch l).startupDeadline = s.startupDeadline ∧ (s.latch l).restartPending = s.restartPending ∧
    (s.latch l).life = s.life ∧ (s.latch l).elems = s.elems ∧ (s.latch l).dmap = s.dmap ∧
    (s.latch l).linkC = s.linkC ∧ (s.latch l).linkF = s.linkF ∧ (s.latch l).linkB1 = s.linkB1 ∧
    (s.latch l).linkB2 = s.linkB2 ∧ (s.latch l).requests = s.requests ∧ (s.latch l).contexts = s.contexts ∧
    (s.latch l).routes = s.routes ∧ (s.latch l).tick = s.tick ∧ (s.latch l).atTick = s.atTick ∧
    (s.latch l).timers = s.timers ∧ (s.latch l).waitList = s.waitList ∧ (s.latch l).ctxTimers = s.ctxTimers ∧
    (s.latch l).auxTimer = s.auxTimer ∧ (s.latch l).trans = s.trans ∧ (s.latch l).offerRef1 = s.offerRef1 ∧
    (s.latch l).offerRef2 = s.offerRef2 ∧ (s.latch l).auxPending = s.auxPending ∧ (s.latch l).queue = s.queue ∧
    (s.latch l).lostPorts = s.lostPorts ∧ (s.latch l).mask = s.mask ∧ (s.latch l).seq = s.seq ∧
    (s.latch l).lost = s.lost ∧ (s.latch l).notice = s.notice ∧ (s.latch l).events = s.events ∧
    (s.latch l).sent = s.sent := by
  and_intros <;> rfl

@[simp] theorem State.clearAux_others (s : State) :
    (s.clearAux).pending = s.pending ∧ (s.clearAux).store = s.store ∧ (s.clearAux).storedCrc = s.storedCrc ∧
    (s.clearAux).tablesValid = s.tablesValid ∧ (s.clearAux).blocked = s.blocked ∧
    (s.clearAux).auxCounter = s.auxCounter ∧ (s.clearAux).mode = s.mode ∧ (s.clearAux).safeN = s.safeN ∧
    (s.clearAux).startupDeadline = s.startupDeadline ∧ (s.clearAux).restartPending = s.restartPending ∧
    (s.clearAux).life = s.life ∧ (s.clearAux).elems = s.elems ∧ (s.clearAux).dmap = s.dmap ∧
    (s.clearAux).linkC = s.linkC ∧ (s.clearAux).linkF = s.linkF ∧ (s.clearAux).linkB1 = s.linkB1 ∧
    (s.clearAux).linkB2 = s.linkB2 ∧ (s.clearAux).requests = s.requests ∧ (s.clearAux).contexts = s.contexts ∧
    (s.clearAux).routes = s.routes ∧ (s.clearAux).tick = s.tick ∧ (s.clearAux).atTick = s.atTick ∧
    (s.clearAux).timers = s.timers ∧ (s.clearAux).waitList = s.waitList ∧ (s.clearAux).ctxTimers = s.ctxTimers ∧
    (s.clearAux).trans = s.trans ∧ (s.clearAux).offerRef1 = s.offerRef1 ∧ (s.clearAux).offerRef2 = s.offerRef2 ∧
    (s.clearAux).queue = s.queue ∧ (s.clearAux).latches = s.latches ∧ (s.clearAux).lostPorts = s.lostPorts ∧
    (s.clearAux).mask = s.mask ∧ (s.clearAux).seq = s.seq ∧ (s.clearAux).lost = s.lost ∧
    (s.clearAux).notice = s.notice ∧ (s.clearAux).events = s.events ∧ (s.clearAux).sent = s.sent := by
  and_intros <;> rfl

@[simp] theorem State.startAuxTimer_others (s : State) :
    (s.startAuxTimer).pending = s.pending ∧ (s.startAuxTimer).store = s.store ∧
    (s.startAuxTimer).storedCrc = s.storedCrc ∧ (s.startAuxTimer).tablesValid = s.tablesValid ∧
    (s.startAuxTimer).blocked = s.blocked ∧ (s.startAuxTimer).auxCounter = s.auxCounter ∧
    (s.startAuxTimer).mode = s.mode ∧ (s.startAuxTimer).safeN = s.safeN ∧
    (s.startAuxTimer).startupDeadline = s.startupDeadline ∧ (s.startAuxTimer).restartPending = s.restartPending ∧
    (s.startAuxTimer).life = s.life ∧ (s.startAuxTimer).elems = s.elems ∧ (s.startAuxTimer).dmap = s.dmap ∧
    (s.startAuxTimer).linkC = s.linkC ∧ (s.startAuxTimer).linkF = s.linkF ∧ (s.startAuxTimer).linkB1 = s.linkB1 ∧
    (s.startAuxTimer).linkB2 = s.linkB2 ∧ (s.startAuxTimer).requests = s.requests ∧
    (s.startAuxTimer).contexts = s.contexts ∧ (s.startAuxTimer).routes = s.routes ∧
    (s.startAuxTimer).tick = s.tick ∧ (s.startAuxTimer).atTick = s.atTick ∧ (s.startAuxTimer).timers = s.timers ∧
    (s.startAuxTimer).waitList = s.waitList ∧ (s.startAuxTimer).ctxTimers = s.ctxTimers ∧
    (s.startAuxTimer).trans = s.trans ∧ (s.startAuxTimer).offerRef1 = s.offerRef1 ∧
    (s.startAuxTimer).offerRef2 = s.offerRef2 ∧ (s.startAuxTimer).auxPending = s.auxPending ∧
    (s.startAuxTimer).queue = s.queue ∧ (s.startAuxTimer).latches = s.latches ∧
    (s.startAuxTimer).lostPorts = s.lostPorts ∧ (s.startAuxTimer).mask = s.mask ∧ (s.startAuxTimer).seq = s.seq ∧
    (s.startAuxTimer).lost = s.lost ∧ (s.startAuxTimer).notice = s.notice ∧ (s.startAuxTimer).events = s.events ∧
    (s.startAuxTimer).sent = s.sent := by
  and_intros <;> rfl

@[simp] theorem State.freeCtx_others (s : State) (c : Nat) :
    (s.freeCtx c).pending = s.pending ∧ (s.freeCtx c).store = s.store ∧ (s.freeCtx c).storedCrc = s.storedCrc ∧
    (s.freeCtx c).tablesValid = s.tablesValid ∧ (s.freeCtx c).blocked = s.blocked ∧
    (s.freeCtx c).auxCounter = s.auxCounter ∧ (s.freeCtx c).mode = s.mode ∧ (s.freeCtx c).safeN = s.safeN ∧
    (s.freeCtx c).startupDeadline = s.startupDeadline ∧ (s.freeCtx c).restartPending = s.restartPending ∧
    (s.freeCtx c).life = s.life ∧ (s.freeCtx c).elems = s.elems ∧ (s.freeCtx c).dmap = s.dmap ∧
    (s.freeCtx c).linkC = s.linkC ∧ (s.freeCtx c).linkF = s.linkF ∧ (s.freeCtx c).linkB1 = s.linkB1 ∧
    (s.freeCtx c).linkB2 = s.linkB2 ∧ (s.freeCtx c).requests = s.requests ∧ (s.freeCtx c).routes = s.routes ∧
    (s.freeCtx c).tick = s.tick ∧ (s.freeCtx c).atTick = s.atTick ∧ (s.freeCtx c).timers = s.timers ∧
    (s.freeCtx c).waitList = s.waitList ∧ (s.freeCtx c).auxTimer = s.auxTimer ∧ (s.freeCtx c).trans = s.trans ∧
    (s.freeCtx c).offerRef1 = s.offerRef1 ∧ (s.freeCtx c).offerRef2 = s.offerRef2 ∧
    (s.freeCtx c).auxPending = s.auxPending ∧ (s.freeCtx c).queue = s.queue ∧ (s.freeCtx c).latches = s.latches ∧
    (s.freeCtx c).lostPorts = s.lostPorts ∧ (s.freeCtx c).mask = s.mask ∧ (s.freeCtx c).seq = s.seq ∧
    (s.freeCtx c).lost = s.lost ∧ (s.freeCtx c).notice = s.notice ∧ (s.freeCtx c).events = s.events ∧
    (s.freeCtx c).sent = s.sent := by
  and_intros <;> rfl

@[simp] theorem State.elem_setElem (s : State) (e k : Nat) (x : Elem) :
    (s.setElem e x).elem k = if k = e then x else s.elem k := tblGet_set ..
@[simp] theorem State.elem_modElem (s : State) (e k : Nat) (f : Elem → Elem) :
    (s.modElem e f).elem k = if k = e then f (s.elem e) else s.elem k := tblGet_set ..
@[simp] theorem State.isBlocked_setBlocked (s : State) (e k : Nat) (b : Bool) :
    (s.setBlocked e b).isBlocked k = if k = e then b else s.isBlocked k := tblGet_set ..
@[simp] theorem State.transOf_setTrans (s : State) (e k : Nat) (x : TransRec) :
    (s.setTrans e x).transOf k = if k = e then x else s.transOf k := tblGet_set ..
@[simp] theorem State.route_setRoute (s : State) (r k : Nat) (x : RouteRec) :
    (s.setRoute r x).route k = if k = r then x else s.route k := tblGet_set ..
@[simp] theorem State.route_modRoute (s : State) (r k : Nat) (f : RouteRec → RouteRec) :
    (s.modRoute r f).route k = if k = r then f (s.route r) else s.route k := tblGet_set ..
@[simp] theorem State.ctx_setCtx (s : State) (c k : Nat) (x : Option Ctx) :
    (s.setCtx c x).ctx k = if k = c then x else s.ctx k := tblGet_set ..
@[simp] theorem State.timerOf_setTimer (s : State) (t k : Nat) (x : Option HeldTimer) :
    (s.setTimer t x).timerOf k = if k = t then x else s.timerOf k := tblGet_set ..
@[simp] theorem State.ctxTimer_setCtxTimer (s : State) (c k : Nat) (x : Option Timer) :
    (s.setCtxTimer c x).ctxTimer k = if k = c then x else s.ctxTimer k := tblGet_set ..
@[simp] theorem State.lifeOf_setLife (s : State) (a k : Nat) (x : Option Byte) :
    (s.setLife a x).lifeOf k = if k = a then x else s.lifeOf k := tblGet_set ..
@[simp] theorem State.link_setLink (s : State) (p q : Port) (x : LinkRec) :
    (s.setLink p x).link q = if q = p then x else s.link q := by cases p <;> cases q <;> rfl
@[simp] theorem State.sent_send (s : State) (p : Port) (x : Telegram) : (s.send p x).sent = s.sent ++ [⟨p, x⟩] := rfl

end Sys2Proof.Machine
end

