-- ==== Sys2Proof/Laws/HandedOn.lean ====
section
/-! SUPPORT. What the operations of the SE, the FR, the RM, the TB and the BLs can touch, said once: `HandedOn u t` holds
of a state `u` and the state `t` that any of them, or the whole end of an event, makes of it. -/

namespace Sys2Proof.Machine

set_option Elab.async false

/-! ### The event record -/

@[simp] theorem Ev.start_fields (s : State) : (Ev.start s).before = s ∧ (Ev.start s).offers = [] ∧
    (Ev.start s).reached = [] := ⟨rfl, rfl, rfl⟩
@[simp] theorem Ev.on_fields (ev : Ev) (f : State → State) : (ev.on f).s = f ev.s ∧ (ev.on f).before = ev.before ∧
    (ev.on f).offers = ev.offers ∧ (ev.on f).reached = ev.reached := ⟨rfl, rfl, rfl, rfl⟩
@[simp] theorem Ev.raise_fields (ev : Ev) (x : Src) (r : Report) : (ev.raise x r).s = ev.s ∧
    (ev.raise x r).before = ev.before ∧ (ev.raise x r).offers = ev.offers ++ [⟨x, r⟩] ∧
    (ev.raise x r).reached = ev.reached := ⟨rfl, rfl, rfl, rfl⟩
@[simp] theorem Ev.reach_fields (ev : Ev) (r : Nat) : (ev.reach r).s = ev.s ∧ (ev.reach r).before = ev.before ∧
    (ev.reach r).offers = ev.offers ∧ (ev.reach r).reached = r :: ev.reached := ⟨rfl, rfl, rfl, rfl⟩
@[simp] theorem Ev.routeReport_s (ev : Ev) (r : Nat) (w : RouteRec) (x : RouteEvent) :
    (ev.routeReport r w x).s = ev.s := rfl
@[simp] theorem Ev.routeEvent_s (ev : Ev) (r : Nat) (x : RouteEvent) : (ev.routeEvent r x).s = ev.s := rfl
@[simp] theorem Ev.fault_s (ev : Ev) (x : Src) (f : FaultReport) : (ev.fault x f).s = ev.s.latch f.cls := rfl

/-- `t` differs from `u` only in the records that the SE, the FR, the RM, the TB and the BLs own; telegrams are only
added, latches only set, no element is locked, no FREE context becomes ACTIVE and no context timer starts. -/
structure HandedOn (u t : State) : Prop where
  frame : t = u.withRoutesOf t
  bare : ∀ e, (t.elem e).bare = (u.elem e).bare
  sent : u.sent <+: t.sent
  latches : ∀ i, u.latches.getLsbD i = true → t.latches.getLsbD i = true
  lock : ∀ e r, (t.elem e).lockOwner = some r → (u.elem e).lockOwner = some r
  ctx : ∀ c, u.ctx c = none → t.ctx c = none
  ctxTimer : ∀ c, u.ctxTimer c = none → t.ctxTimer c = none
  queue : u.queue.length ≤ 32 → t.queue.length ≤ 32
  queueOne : (∀ e, (u.queue.filter (Report.isElement e)).length ≤ 1) →
    ∀ e, (t.queue.filter (Report.isElement e)).length ≤ 1
  lost : u.lost ≤ 65535 → t.lost ≤ 65535

theorem HandedOn.refl (u : State) : HandedOn u u :=
  ⟨rfl, fun _ => rfl, List.prefix_rfl, fun _ h => h, fun _ _ h => h, fun _ h => h, fun _ h => h, id, id, id⟩

theorem HandedOn.trans {u v t : State} (h : HandedOn u v) (k : HandedOn v t) : HandedOn u t where
  frame := by
    have h1 := h.frame
    have h2 := k.frame
    rw [h1] at h2
    exact h2
  bare e := (k.bare e).trans (h.bare e)
  sent := h.sent.trans k.sent
  latches i hi := k.latches i (h.latches i hi)
  lock e r hl := h.lock e r (k.lock e r hl)
  ctx c hc := k.ctx c (h.ctx c hc)
  ctxTimer c hc := k.ctxTimer c (h.ctxTimer c hc)
  queue hq := k.queue (h.queue hq)
  queueOne hq := k.queueOne (h.queueOne hq)
  lost hl := k.lost (h.lost hl)

/-- Transitivity where the middle state is only definitionally the same. -/
theorem HandedOn.via {u v v' t : State} (h : HandedOn u v) (k : HandedOn v' t) (e : v = v' := by rfl) :
    HandedOn u t := h.trans (e ▸ k)

/-- A fold of operations that each stay within the relation stays within it. -/
theorem HandedOn.foldl {α β : Type} (p : β → State) (f : β → α → β) (h : ∀ b a, HandedOn (p b) (p (f b a)))
    (l : List α) (b : β) : HandedOn (p b) (p (l.foldl f b)) := by
  induction l generalizing b with
  | nil => exact .refl _
  | cons a l ih => exact (h b a).trans (ih _)

/-! ### One record at a time -/

theorem State.modElem_handedOn (s : State) (e : Nat) (f : Elem → Elem) (h : ∀ x, (f x).bare = x.bare)
    (hl : ∀ x r, (f x).lockOwner = some r → x.lockOwner = some r := by exact fun _ _ h => h) :
    HandedOn s (s.modElem e f) :=
  { HandedOn.refl s with
    frame := rfl
    bare := fun k => by
      rw [State.elem_modElem]
      split
      · next hk => subst hk; exact h _
      · rfl
    lock := fun k r hk => by
      rw [State.elem_modElem] at hk
      split at hk
      · next e' => subst e'; exact hl _ _ hk
      · exact hk }

theorem State.setRoute_handedOn (s : State) (r : Nat) (x : RouteRec) : HandedOn s (s.setRoute r x) :=
  { HandedOn.refl s with frame := rfl }

theorem State.modRoute_handedOn (s : State) (r : Nat) (f : RouteRec → RouteRec) : HandedOn s (s.modRoute r f) :=
  { HandedOn.refl s with frame := rfl }

theorem Ev.modRoute_handedOn (ev : Ev) (r : Nat) (f : RouteRec → RouteRec) :
    HandedOn ev.s (ev.on (fun s => s.modRoute r f)).s := ev.s.modRoute_handedOn r f

theorem State.setTrans_handedOn (s : State) (e : Nat) (x : TransRec) : HandedOn s (s.setTrans e x) :=
  { HandedOn.refl s with frame := rfl }

theorem State.setTimer_handedOn (s : State) (t : Nat) (x : Option HeldTimer) : HandedOn s (s.setTimer t x) :=
  { HandedOn.refl s with frame := rfl }

theorem State.stopCtxTimer_handedOn (s : State) (c : Nat) : HandedOn s (s.setCtxTimer c none) :=
  { HandedOn.refl s with
    frame := rfl
    ctxTimer := fun k hk => by
      rw [State.ctxTimer_setCtxTimer]
      split
      · rfl
      · exact hk }

theorem State.waitList_handedOn (s : State) (w : List Waiting) : HandedOn s { s with waitList := w } :=
  { HandedOn.refl s with frame := rfl }

/-- A context that is ACTIVE may be written, and any context may be freed. -/
theorem State.setCtx_handedOn (s : State) (c : Nat) (x : Option Ctx) (h : s.ctx c = none → x = none) :
    HandedOn s (s.setCtx c x) :=
  { HandedOn.refl s with
    frame := rfl
    ctx := fun k hk => by
      rw [State.ctx_setCtx]
      split
      · next e => subst e; exact h hk
      · exact hk }

theorem State.send_handedOn (s : State) (p : Port) (x : Telegram) : HandedOn s (s.send p x) :=
  { HandedOn.refl s with frame := rfl, sent := List.prefix_append _ _ }

theorem setLatch_mono (ls : BitVec 8) (l : Latch) (i : Nat) (h : ls.getLsbD i = true) :
    (setLatch ls l).getLsbD i = true := by
  simp [setLatch, h]

theorem State.latch_handedOn (s : State) (l : Latch) : HandedOn s (s.latch l) :=
  { HandedOn.refl s with frame := rfl, latches := fun i h => setLatch_mono _ _ i h }

theorem State.freeCtx_handedOn (s : State) (c : Nat) : HandedOn s (s.freeCtx c) :=
  (s.setCtx_handedOn c none (fun _ => rfl)).trans (State.stopCtxTimer_handedOn _ c)

theorem State.unlock_handedOn (s : State) (e : Nat) : HandedOn s (s.unlock e) :=
  s.modElem_handedOn e _ (fun _ => rfl) (fun _ _ h => by simp at h)

theorem State.unlockAll_handedOn (s : State) (r : Nat) : HandedOn s (s.unlockAll r) :=
  HandedOn.foldl id State.unlock State.unlock_handedOn (s.lockedBy r) s

theorem State.dropClaim_handedOn (s : State) (f : FlankRec) : HandedOn s (s.dropClaim f) :=
  s.modElem_handedOn _ _ (fun _ => rfl)

theorem State.dropClaims_handedOn (s : State) (r : Nat) (p : FlankRec → Bool) : HandedOn s (s.dropClaims r p) := by
  unfold State.dropClaims
  exact (HandedOn.foldl id State.dropClaim State.dropClaim_handedOn _ s).trans (State.modRoute_handedOn _ r _)

theorem State.writeAspect_handedOn (s : State) (r : Nat) (a : Aspect) : HandedOn s (s.writeAspect r a) := by
  unfold State.writeAspect
  refine .trans ?_ (State.modRoute_handedOn _ r _)
  split
  · exact s.modElem_handedOn _ _ (fun _ => rfl)
  · exact s.modElem_handedOn _ _ (fun _ => rfl)

theorem State.sendCommand_handedOn (s : State) (fec : Nat) : HandedOn s (s.sendCommand fec) := s.send_handedOn _ _

/-! ### Timers -/

theorem State.grantTimer_handedOn (s : State) (t r : Nat) (p : Purpose) : HandedOn s (s.grantTimer t r p) := by
  unfold State.grantTimer
  exact (s.setTimer_handedOn t _).trans (State.modRoute_handedOn _ r _)

theorem State.freeTimer_handedOn (s : State) (t : Nat) : HandedOn s (s.freeTimer t) := by
  unfold State.freeTimer
  split
  · exact s.setTimer_handedOn t none
  · exact ((s.setTimer_handedOn t none).trans (State.waitList_handedOn _ _)).trans (State.grantTimer_handedOn _ t _ _)

theorem State.freeRequest_handedOn (s : State) (r : Nat) : HandedOn s (s.freeRequest r) := by
  unfold State.freeRequest
  split
  · exact (s.modRoute_handedOn r _).trans (State.freeTimer_handedOn _ _)
  · split
    · exact (s.modRoute_handedOn r _).trans (State.waitList_handedOn _ _)
    · exact .refl s

theorem State.timerRequest_handedOn (s : State) (r : Nat) (p : Purpose) : HandedOn s (s.timerRequest r p).1 := by
  unfold State.timerRequest
  split
  · exact s.freeRequest_handedOn r
  · split
    · exact s.grantTimer_handedOn _ r p
    · split
      · exact (s.modRoute_handedOn r _).trans (State.waitList_handedOn _ _)
      · split
        · exact s.grantTimer_handedOn _ r p
        · exact (s.modRoute_handedOn r _).trans (State.waitList_handedOn _ _)

/-! ### The report queue -/

theorem State.loseReport_handedOn (s : State) : HandedOn s s.loseReport :=
  { HandedOn.refl s with
    frame := rfl
    latches := fun i h => setLatch_mono _ _ i h
    lost := fun _ => Nat.min_le_right _ _ }

/-- A report may take a new place where it is no second Element Report of its element. -/
theorem State.placeReport_handedOn (s : State) (r : Report)
    (h : ∀ e, r.isElement e = true → s.queue.any (Report.isElement e) = false) : HandedOn s (s.placeReport r) := by
  unfold State.placeReport
  split
  · next hl =>
    refine { HandedOn.refl s with frame := rfl, queue := fun _ => by simp; omega, queueOne := fun hq e => ?_ }
    have hq := hq e
    simp only [List.filter_append, List.length_append]
    cases hr : r.isElement e with
    | false => simpa [hr] using hq
    | true =>
      have : s.queue.filter (Report.isElement e) = [] := by
        have := h e hr
        simpa [List.any_eq_false] using this
      simp [this, hr]
  · exact s.loseReport_handedOn

theorem Report.isElement_eq {e : Nat} {er : ElementReport} (h : (Report.element er).isElement e = true) :
    er.elem = e := by simpa [Report.isElement] using h

/-- Replacing queued Element Reports of an element by another of the same element keeps how many there are. -/
theorem filter_replace (qs : List Report) (er : ElementReport) (e : Nat) :
    ((qs.map (fun q => if q.isElement er.elem then Report.element er else q)).filter (Report.isElement e)).length
      = (qs.filter (Report.isElement e)).length := by
  induction qs with
  | nil => rfl
  | cons q qs ih =>
    have hone : (if q.isElement er.elem = true then Report.element er else q).isElement e = q.isElement e := by
      split
      · next h =>
        cases q with
        | element x =>
          have := Report.isElement_eq h
          simp only [Report.isElement, this]
        | _ => simp [Report.isElement] at h
      · rfl
    simp only [List.map_cons, List.filter_cons, hone]
    split
    · simp only [List.length_cons, ih]
    · exact ih

theorem State.offer_handedOn (s : State) (r : Report) : HandedOn s (s.offer r) := by
  unfold State.offer
  split
  · split
    · next er =>
      split
      · exact { HandedOn.refl s with
          frame := rfl
          queue := fun h => by simpa using h
          queueOne := fun hq e => by rw [filter_replace]; exact hq e }
      · next h =>
        refine s.placeReport_handedOn _ (fun e he => ?_)
        rw [← Report.isElement_eq he]
        simpa using h
    · next hn =>
      refine s.placeReport_handedOn _ (fun e he => ?_)
      cases r with
      | element x => exact absurd rfl (hn x)
      | _ => simp [Report.isElement] at he
  · exact .refl s

/-- Judging reports by another mask and putting the mask back stays within the relation. -/
theorem HandedOn.underMask {u t : State} (m : BitVec 11) (h : HandedOn { u with mask := m } t) :
    HandedOn u { t with mask := u.mask } :=
  { frame := by
      have e := congrArg (fun x : State => { x with mask := u.mask }) h.frame
      exact e
    bare := h.bare, sent := h.sent, latches := h.latches, lock := h.lock, ctx := h.ctx, ctxTimer := h.ctxTimer,
    queue := h.queue, queueOne := h.queueOne, lost := h.lost }

theorem Ev.commit_handedOn (ev : Ev) : HandedOn ev.s ev.commit :=
  (HandedOn.foldl id State.offer State.offer_handedOn _ { ev.s with mask := ev.before.mask }).underMask ev.before.mask

/-! ### Border transactions -/

theorem Ev.sendBorder_handedOn (ev : Ev) (l : Link) (tx : BorderTx) : HandedOn ev.s (ev.sendBorder l tx).s :=
  ev.s.send_handedOn _ _

theorem Ev.changeTrans_handedOn (ev : Ev) (l : Link) (e : Nat) (t : TransRec) (ref : Byte) (cause : BorderCause)
    (reason : Option Byte) : HandedOn ev.s (ev.changeTrans l e t ref cause reason).s := ev.s.setTrans_handedOn e t

theorem Ev.sendDecline_handedOn (ev : Ev) (l : Link) (e : Option Nat) (pt ref : Byte) (x : Reason) :
    HandedOn ev.s (ev.sendDecline l e pt ref x).s := ev.s.send_handedOn _ _

theorem Ev.sendTooLate_handedOn (ev : Ev) (l : Link) (e : Nat) (pt ref : Byte) :
    HandedOn ev.s (ev.sendTooLate l e pt ref).s := ev.s.send_handedOn _ _

theorem Ev.sendWithdraw_handedOn (ev : Ev) (l : Link) (e : Nat) (ref : Byte) (x : Reason) :
    HandedOn ev.s (ev.sendWithdraw l e ref x).s :=
  (ev.sendBorder_handedOn l _).via (Ev.changeTrans_handedOn _ l e _ _ _ _)

theorem Ev.sendHandback_handedOn (ev : Ev) (l : Link) (e : Nat) (ref : Byte) :
    HandedOn ev.s (ev.sendHandback l e ref).s :=
  (ev.sendBorder_handedOn l _).via (Ev.changeTrans_handedOn _ l e _ _ _ _)

theorem Ev.sendAccept_handedOn (ev : Ev) (l : Link) (e : Nat) (ref : Byte) : HandedOn ev.s (ev.sendAccept l e ref).s :=
  (ev.sendBorder_handedOn l _).via (Ev.changeTrans_handedOn _ l e _ _ _ _)

theorem Ev.declineOrigin_handedOn (ev : Ev) (r : Nat) (o : Option Origin) (x : Reason) :
    HandedOn ev.s (ev.declineOrigin r o x).s := by
  unfold Ev.declineOrigin
  split
  · exact ev.sendDecline_handedOn _ _ _ _ _
  · exact .refl _

/-! ### The Setting Engine -/

/-- The Offer of a failing context is withdrawn where its transaction still stands (R89). -/
theorem withdrawOf_handedOn (ev : Ev) (o : Option Byte) (dest : Nat) (x : Reason) :
    HandedOn ev.s (match o, ev.s.elemLink dest with
      | some ref, some l =>
        match (ev.s.transOf dest).state with
        | .offerSent | .heldOut => ev.sendWithdraw l dest ref x
        | _ => ev
      | _, _ => ev : Ev).s := by
  split
  · split
    · exact ev.sendWithdraw_handedOn _ _ _ _
    · exact ev.sendWithdraw_handedOn _ _ _ _
    · exact .refl _
  · exact .refl _

theorem Ev.part_handedOn (ev : Ev) (q : Sequence) (k : Nat) (f : Ev → Ev) (h : ∀ b : Ev, HandedOn b.s (f b).s) :
    HandedOn ev.s (ev.part q k f).s := h { ev with offers := [] }

/-- A sequence of operations, whatever order it gives their reports. -/
theorem Ev.inOrder_handedOn (q : Sequence) (fs : List (Ev → Ev)) (h : ∀ f ∈ fs, ∀ b : Ev, HandedOn b.s (f b).s)
    (ev : Ev) (k : Nat) : HandedOn ev.s (ev.inOrder q k fs).s := by
  induction fs generalizing ev k with
  | nil => exact .refl _
  | cons f fs ih =>
    exact (ev.part_handedOn q k f (h f (by simp))).trans (ih (fun g hg => h g (by simp [hg])) (ev.part q k f) (k + 1))

theorem Ev.failCtx_handedOn (ev : Ev) (c : Nat) (x : Reason) (named : Nat) (d : Bool) :
    HandedOn ev.s (ev.failCtx c x named d).s := by
  unfold Ev.failCtx
  split
  · exact .refl _
  · next y _ =>
    have h := ((((withdrawOf_handedOn ev y.offerRef (ev.s.rrow y.route).dest x).trans
      (State.unlockAll_handedOn _ y.route)).trans (State.dropClaims_handedOn _ y.route (fun _ => true))).trans
      (State.setRoute_handedOn _ y.route {})).trans (State.freeCtx_handedOn _ c)
    dsimp only
    split
    · refine h.via (Ev.inOrder_handedOn _ _ (fun f hf b => ?_) _ 0)
      simp only [List.mem_cons, List.not_mem_nil, or_false] at hf
      rcases hf with rfl | rfl
      · exact .refl _
      · exact b.declineOrigin_handedOn _ _ _
    · exact h

theorem Ev.completeCtx_handedOn (ev : Ev) (c : Nat) : HandedOn ev.s (ev.completeCtx c).s := by
  unfold Ev.completeCtx
  split
  · exact .refl _
  · next x _ =>
    have h : HandedOn ev.s ((ev.s.freeCtx c).modRoute x.route (fun w =>
        { w with state := .locked, context := none, clearWanted := true })) :=
      (State.freeCtx_handedOn _ _).trans (State.modRoute_handedOn _ _ _)
    dsimp only
    split
    · exact h.via (Ev.sendAccept_handedOn _ _ _ _)
    · exact h

theorem Ev.completeIfDone_handedOn (ev : Ev) (c : Nat) : HandedOn ev.s (ev.completeIfDone c).s := by
  unfold Ev.completeIfDone
  split
  · split
    · exact ev.completeCtx_handedOn c
    · exact .refl _
  · exact .refl _

theorem Ev.handToCtx_handedOn (ev : Ev) (changed : List Nat) (c : Nat) : HandedOn ev.s (ev.handToCtx changed c).s := by
  unfold Ev.handToCtx
  split
  · exact .refl _
  · next x hx =>
    dsimp only
    split
    · exact ev.failCtx_handedOn _ _ _ _
    · split
      · exact .refl _
      · exact (ev.s.setCtx_handedOn c _ (fun h => by simp [h] at hx)).via (Ev.completeIfDone_handedOn _ c)

theorem Ev.handToSetting_handedOn (ev : Ev) : HandedOn ev.s ev.handToSetting.s :=
  HandedOn.foldl Ev.s _ (fun b c => b.handToCtx_handedOn _ c) _ _

/-! ### The Route Monitor -/

theorem Ev.toDanger_handedOn (ev : Ev) (r : Nat) : HandedOn ev.s (ev.toDanger r).s := ev.s.writeAspect_handedOn r _

theorem Ev.borderRelease_handedOn (ev : Ev) (r : Nat) (b : Bool) : HandedOn ev.s (ev.borderRelease r b).s := by
  unfold Ev.borderRelease
  dsimp only
  split
  · split
    · split
      · exact ev.sendHandback_handedOn _ _ _
      · exact ev.sendWithdraw_handedOn _ _ _ _
    · exact .refl _
  · exact .refl _

theorem Ev.fullRelease_handedOn (ev : Ev) (r : Nat) : HandedOn ev.s (ev.fullRelease r).s := by
  unfold Ev.fullRelease
  dsimp only
  have h := ((ev.s.unlockAll_handedOn r).trans (State.dropClaims_handedOn _ r (fun _ => true))).trans
    (State.freeRequest_handedOn _ r)
  refine h.via (Ev.inOrder_handedOn _ _ (fun f hf b => ?_) (ev.on _) 1)
  simp only [List.mem_cons, List.not_mem_nil, or_false] at hf
  rcases hf with rfl | rfl
  · exact b.borderRelease_handedOn r _
  · exact b.s.setRoute_handedOn r {}

theorem Ev.timedWait_handedOn (ev : Ev) (r : Nat) (p : Purpose) (x : RouteEvent) :
    HandedOn ev.s (ev.timedWait r p x).s := by
  unfold Ev.timedWait
  have h := ev.s.timerRequest_handedOn r p
  split
  · next s hs => rw [hs] at h; exact h.via (Ev.fullRelease_handedOn _ r)
  · next s _ _ hs => rw [hs] at h; exact h

theorem Ev.forcedRelease_handedOn (ev : Ev) (r : Nat) : HandedOn ev.s (ev.forcedRelease r).s := by
  unfold Ev.forcedRelease
  dsimp only
  exact ((ev.toDanger_handedOn r).trans (Ev.modRoute_handedOn _ r _)).via (Ev.timedWait_handedOn _ r _ _)

theorem Ev.revert_handedOn (ev : Ev) (r e : Nat) : HandedOn ev.s (ev.revert r e).s := by
  unfold Ev.revert
  simp only [Ev.routeEvent_s, Ev.on_fields]
  exact (ev.toDanger_handedOn r).trans (State.modRoute_handedOn _ r _)

theorem Ev.enterRoute_handedOn (ev : Ev) (r : Nat) : HandedOn ev.s (ev.enterRoute r).s := by
  unfold Ev.enterRoute
  simp only [Ev.on_fields]
  exact (ev.toDanger_handedOn r).trans (State.modRoute_handedOn _ r _)

theorem Ev.routeFault_handedOn (ev : Ev) (r e : Nat) (x : FaultCause) : HandedOn ev.s (ev.routeFault r e x).s :=
  ev.s.latch_handedOn _

theorem Ev.stepEntry_handedOn (ev : Ev) (r : Nat) : HandedOn ev.s (ev.stepEntry r).s := by
  unfold Ev.stepEntry
  dsimp only
  split
  · exact .refl _
  · split
    · split
      · simp only [Ev.routeEvent_s, Ev.on_fields]
        exact (ev.enterRoute_handedOn r).trans (State.modRoute_handedOn _ r _)
      · exact (ev.routeFault_handedOn r _ _).via (Ev.enterRoute_handedOn _ r)
      · split
        · exact ev.routeFault_handedOn r _ _
        · exact ((ev.routeFault_handedOn r _ _).via (Ev.enterRoute_handedOn _ r)).trans
            (State.freeRequest_handedOn _ r)
      · exact .refl _
    · exact .refl _

theorem Ev.markSection_handedOn (ev : Ev) (r : Nat) (first : Bool) (x : ListRow) :
    HandedOn ev.s (ev.markSection r first x).s := by
  unfold Ev.markSection
  dsimp only
  split
  · exact .refl _
  · split
    · simp only [Ev.on_fields]
      exact ev.s.modRoute_handedOn r _
    · exact ev.routeFault_handedOn r _ _

theorem Ev.stepMarks_handedOn (ev : Ev) (r : Nat) : HandedOn ev.s (ev.stepMarks r).s := by
  refine HandedOn.foldl Ev.s _ (fun b x => ?_) _ _
  split
  · exact b.markSection_handedOn r _ x
  · exact .refl _

theorem State.releaseGroup_handedOn (s : State) (r g : Nat) : HandedOn s (s.releaseGroup r g) := by
  unfold State.releaseGroup
  dsimp only
  exact ((HandedOn.foldl id State.unlock State.unlock_handedOn _ s).trans (State.dropClaims_handedOn _ _ _)).trans
    (State.modRoute_handedOn _ _ _)

theorem State.releaseOverlap_handedOn (s : State) (r : Nat) : HandedOn s (s.releaseOverlap r) :=
  (HandedOn.foldl id State.unlock State.unlock_handedOn _ s).trans (State.dropClaims_handedOn _ _ _)

theorem Ev.endOverlap_handedOn (ev : Ev) (r : Nat) : HandedOn ev.s (ev.endOverlap r).s :=
  (ev.s.releaseOverlap_handedOn r).via (Ev.fullRelease_handedOn _ r)

theorem Ev.stepRelease_handedOn (ev : Ev) (r : Nat) : HandedOn ev.s (ev.stepRelease r).s := by
  unfold Ev.stepRelease
  dsimp only
  split
  · split
    · exact .refl _
    · next last _ _ =>
      generalize ((List.range (ev.s.rrow r).groups).map (· + 1)).filter
        (fun g => ev.s.releaseReady r g && !ev.before.releaseReady r g) = gs
      have h1 : HandedOn ev.s (ev.on (fun s => gs.foldl (fun s g => s.releaseGroup r g) s)).s :=
        HandedOn.foldl id _ (fun b g => State.releaseGroup_handedOn b r g) gs ev.s
      generalize ev.on (fun s => gs.foldl (fun s g => s.releaseGroup r g) s) = ev1 at h1
      have h2 : HandedOn ev1.s (gs.dropLast.foldl (fun ev g => ev.routeEvent r (.groupReleased g)) ev1).s :=
        HandedOn.foldl Ev.s (fun ev g => ev.routeEvent r (.groupReleased g)) (fun b g => .refl _) _ _
      generalize gs.dropLast.foldl (fun ev g => ev.routeEvent r (.groupReleased g)) ev1 = ev2 at h2
      refine (h1.trans h2).trans ?_
      split
      · split
        · refine HandedOn.trans ?_ (Ev.endOverlap_handedOn _ r)
          exact ev2.part_handedOn _ _ (fun ev => ev.routeEvent r _) (fun b => .refl b.s)
        · exact (ev2.modRoute_handedOn r _).via (Ev.timedWait_handedOn _ r _ _)
      · exact .refl _
  · exact .refl _

theorem Ev.stepClear_handedOn (ev : Ev) (r : Nat) : HandedOn ev.s (ev.stepClear r).s := by
  unfold Ev.stepClear
  dsimp only
  split
  · split
    · simp only [Ev.routeEvent_s, Ev.on_fields]
      exact ev.s.modRoute_handedOn r _
    · exact .refl _
  · split
    · exact ev.revert_handedOn r _
    · exact .refl _
  · split
    · exact ev.fullRelease_handedOn r
    · exact .refl _
  · exact .refl _

theorem Ev.evalRoute_handedOn (ev : Ev) (r : Nat) : HandedOn ev.s (ev.evalRoute r).s := by
  unfold Ev.evalRoute
  dsimp only
  refine Ev.inOrder_handedOn _ _ (fun f hf b => ?_) { ev with offers := [] } 1
  obtain ⟨g, hg, rfl⟩ := List.mem_map.1 hf
  have h : g = Ev.stepEntry ∨ g = Ev.stepMarks ∨ g = Ev.stepRelease ∨ g = Ev.stepClear := by
    split at hg <;> simp at hg <;> simp [hg]
  rcases h with rfl | rfl | rfl | rfl
  · exact b.stepEntry_handedOn r
  · exact b.stepMarks_handedOn r
  · exact b.stepRelease_handedOn r
  · exact b.stepClear_handedOn r

theorem Ev.settleAspect_handedOn (ev : Ev) (r : Nat) : HandedOn ev.s (ev.settleAspect r).s := by
  unfold Ev.settleAspect
  dsimp only
  split
  · split
    · exact ev.s.writeAspect_handedOn r _
    · split
      · exact .refl _
      · exact ev.s.writeAspect_handedOn r _
  · exact .refl _

theorem Ev.monitor_handedOn (ev : Ev) : HandedOn ev.s ev.monitor.s :=
  (HandedOn.foldl Ev.s Ev.evalRoute Ev.evalRoute_handedOn _ ev).trans
    (HandedOn.foldl Ev.s Ev.settleAspect Ev.settleAspect_handedOn _ _)

theorem Ev.sendChanges_handedOn (ev : Ev) : HandedOn ev.s ev.sendChanges.s :=
  HandedOn.foldl id State.sendCommand State.sendCommand_handedOn _ _

theorem Ev.handToCpc_s (ev : Ev) (e : Nat) : (ev.handToCpc e).s = ev.s := by
  unfold Ev.handToCpc
  split <;> rfl

/-- The end of an event: everything it can do. -/
theorem Ev.settle_handedOn (ev : Ev) : HandedOn ev.s ev.settle := by
  unfold Ev.settle
  dsimp only
  have h : HandedOn ev.s ev.handToSetting.monitor.sendChanges.s :=
    (ev.handToSetting_handedOn.via (Ev.monitor_handedOn _)).via (Ev.sendChanges_handedOn _)
  refine (h.trans ?_).via (Ev.commit_handedOn _)
  exact HandedOn.foldl Ev.s Ev.handToCpc (fun b a => by rw [b.handToCpc_s]; exact .refl _) _ _

end Sys2Proof.Machine
end

