-- ==== Sys2Proof/Laws/PerInstr.lean ====
section
/-! SUPPORT. Statements about each command as syntax, one lemma per constructor of `Instr`. -/

namespace Sys2Proof.Laws.Telegram

open Sys2Proof.Machine

/-- The bytes that spell a well-formed telegram command are one frame whose payload fits the two-byte length field
(section 12.1), or the bytes that the command itself carries. -/
def Statement (i : Instr) : Prop :=
  i.wf = true → ∀ port bytes, encodeTelegram i = some (port, bytes) →
    (∃ f : Frame, bytes = f.bytes ∧ f.payload.length < 65536) ∨ i = .unknownKind bytes ∨ i = .statusTelegram bytes ∨
      ∃ l, i = .invalidBorderTelegram l bytes

/-- A request whose payload fits is spelled by its frame. -/
theorem of_request {i : Instr} (q : Req) (t : Half) (p : List Byte) (hw : i.wf = payloadFits p)
    (h : encodeTelegram i = some (.c, requestBytes q t p)) : Statement i := by
  intro hf port bytes hb
  rw [h] at hb
  cases hb
  exact .inl ⟨_, rfl, by simpa [hw, payloadFits] using hf⟩

/-- A border telegram is spelled by its frame. -/
theorem of_border {i : Instr} (l : Link) (k : Byte) (p : List Byte) (hw : i.wf = true → p.length < 65536)
    (h : encodeTelegram i = some (l.port, borderBytes k p)) : Statement i := by
  intro hf port bytes hb
  rw [h] at hb
  cases hb
  exact .inl ⟨_, rfl, hw hf⟩

/-- A command that is no telegram is spelled by no bytes. -/
theorem of_none {i : Instr} (h : encodeTelegram i = none) : Statement i := by
  intro _ port bytes hb
  rw [h] at hb
  cases hb

/-- A border transaction telegram is six bytes long. -/
theorem transaction_length {p : List Byte} (h : borderTransactionFits p = true) : p.length < 65536 := by
  simp only [borderTransactionFits, beq_iff_eq] at h
  omega

/-- A Border Status is at most 25 bytes long. -/
theorem status_length {p : List Byte} (h : borderStatusFits p = true) : p.length < 65536 := by
  simp only [borderStatusFits, Bool.and_eq_true, decide_eq_true_eq, beq_iff_eq] at h
  omega

theorem restart (t : Half) (p : List Byte) : Statement (.restart t p) := of_request .restart t p rfl rfl
theorem setRoute (t : Half) (p : List Byte) : Statement (.setRoute t p) := of_request .setRoute t p rfl rfl
theorem cancelRoute (t : Half) (p : List Byte) : Statement (.cancelRoute t p) := of_request .cancelRoute t p rfl rfl
theorem reSignal (t : Half) (p : List Byte) : Statement (.reSignal t p) := of_request .reSignal t p rfl rfl
theorem movePoint (t : Half) (p : List Byte) : Statement (.movePoint t p) := of_request .movePoint t p rfl rfl
theorem blockElement (t : Half) (p : List Byte) : Statement (.blockElement t p) := of_request .blockElement t p rfl rfl
theorem unblockElement (t : Half) (p : List Byte) : Statement (.unblockElement t p) := of_request .unblockElement t p rfl rfl
theorem auxPrepare (t : Half) (p : List Byte) : Statement (.auxPrepare t p) := of_request .auxPrepare t p rfl rfl
theorem auxConfirm (t : Half) (p : List Byte) : Statement (.auxConfirm t p) := of_request .auxConfirm t p rfl rfl
theorem readElement (t : Half) (p : List Byte) : Statement (.readElement t p) := of_request .readElement t p rfl rfl
theorem readRoute (t : Half) (p : List Byte) : Statement (.readRoute t p) := of_request .readRoute t p rfl rfl
theorem readIndications (t : Half) (p : List Byte) : Statement (.readIndications t p) := of_request .readIndications t p rfl rfl
theorem acknowledgeIndications (t : Half) (p : List Byte) : Statement (.acknowledgeIndications t p) := of_request .acknowledgeIndications t p rfl rfl
theorem setReportMask (t : Half) (p : List Byte) : Statement (.setReportMask t p) := of_request .setReportMask t p rfl rfl
theorem loadTableSegment (t : Half) (p : List Byte) : Statement (.loadTableSegment t p) := of_request .loadTableSegment t p rfl rfl
theorem verifyTables (t : Half) (p : List Byte) : Statement (.verifyTables t p) := of_request .verifyTables t p rfl rfl
theorem enterOperation (t : Half) (p : List Byte) : Statement (.enterOperation t p) := of_request .enterOperation t p rfl rfl
theorem leaveOperation (t : Half) (p : List Byte) : Statement (.leaveOperation t p) := of_request .leaveOperation t p rfl rfl
theorem powerOnReset : Statement .powerOnReset := of_none rfl
theorem restartReset : Statement .restartReset := of_none rfl
theorem reservation : Statement .reservation := of_none rfl
theorem auxWindowExpiry : Statement .auxWindowExpiry := of_none rfl
theorem startupEnd : Statement .startupEnd := of_none rfl
theorem backgroundCheck : Statement .backgroundCheck := of_none rfl
theorem reportSend : Statement .reportSend := of_none rfl
theorem supervisionLoss (n : Nat) : Statement (.supervisionLoss n) := of_none rfl
theorem throwTimeout (n : Nat) : Statement (.throwTimeout n) := of_none rfl
theorem releaseTimerExpiry (n : Nat) : Statement (.releaseTimerExpiry n) := of_none rfl
theorem contextTimerExpiry (n : Nat) : Statement (.contextTimerExpiry n) := of_none rfl
theorem commandRefresh (n : Nat) : Statement (.commandRefresh n) := of_none rfl
theorem rateTick (n : Nat) : Statement (.rateTick n) := of_none rfl
theorem linkTimerExpiry (p : Port) : Statement (.linkTimerExpiry p) := of_none rfl
theorem borderStatusSend (l : Link) : Statement (.borderStatusSend l) := of_none rfl
theorem offer (l : Link) (p : List Byte) : Statement (.offer l p) := of_border l 0x11 p transaction_length rfl
theorem accept (l : Link) (p : List Byte) : Statement (.accept l p) := of_border l 0x12 p transaction_length rfl
theorem decline (l : Link) (p : List Byte) : Statement (.decline l p) := of_border l 0x13 p transaction_length rfl
theorem withdraw (l : Link) (p : List Byte) : Statement (.withdraw l p) := of_border l 0x14 p transaction_length rfl
theorem handback (l : Link) (p : List Byte) : Statement (.handback l p) := of_border l 0x15 p transaction_length rfl
theorem borderStatus (l : Link) (p : List Byte) : Statement (.borderStatus l p) := of_border l 0x10 p status_length rfl

theorem unknownKind (bytes : List Byte) : Statement (.unknownKind bytes) := by
  intro _ port bs hb
  cases hb
  exact .inr (.inl rfl)

theorem statusTelegram (bytes : List Byte) : Statement (.statusTelegram bytes) := by
  intro _ port bs hb
  cases hb
  exact .inr (.inr (.inl rfl))

theorem invalidBorderTelegram (l : Link) (bytes : List Byte) : Statement (.invalidBorderTelegram l bytes) := by
  intro _ port bs hb
  cases hb
  exact .inr (.inr (.inr ⟨l, rfl⟩))

end Sys2Proof.Laws.Telegram
end

