-- ==== Sys2Proof/Laws/Quiet.lean ====
section
/-! SUPPORT. When the end of an event only offers its reports: nothing an element hands on has changed, no route was
reached, and no CLEARED route's aspect is due. -/

namespace Sys2Proof.Machine

theorem Ev.handToCtx_nil (ev : Ev) (c : Nat) : ev.handToCtx [] c = ev := by
  unfold Ev.handToCtx
  split
  · rfl
  · simp

theorem foldl_id {α β : Type} (f : β → α → β) (l : List α) (b : β) (h : ∀ a ∈ l, f b a = b) : l.foldl f b = b := by
  induction l with
  | nil => rfl
  | cons a l ih =>
    rw [List.foldl_cons, h a (by simp)]
    exact ih (fun x hx => h x (by simp [hx]))

/-- An event that changed nothing it would hand on. -/
theorem Ev.settle_of_still (ev : Ev) (hc : changedElems ev.before ev.s = []) (hr : ev.reached = [])
    (ha : ∀ r, (ev.s.route r).state = .cleared → ev.aspectDue r = false)
    (hm : ∀ e ∈ ev.s.elemIndices, commandChanged ev.before ev.s e = false) : ev.settle = ev.commit := by
  have h1 : ev.handToSetting = ev := by
    unfold Ev.handToSetting
    rw [hc]
    exact foldl_id _ _ _ (fun c _ => ev.handToCtx_nil c)
  have h2 : ev.monitor = ev := by
    have hn : ev.reachedRoutes = [] := by simp [Ev.reachedRoutes, hc, hr]
    unfold Ev.monitor
    rw [hn]
    refine foldl_id _ _ _ (fun r _ => ?_)
    unfold Ev.settleAspect
    rw [if_neg]
    rintro ⟨h, hd⟩
    simp [ha r h] at hd
  have h3 : ev.sendChanges = ev := by
    have : ev.s.elemIndices.filter (commandChanged ev.before ev.s) = [] := by simpa using hm
    unfold Ev.sendChanges Ev.on
    rw [this]
    rfl
  unfold Ev.settle
  rw [h1, h2, h3]
  dsimp only
  rw [hc]
  rfl

theorem mem_tblKeys_of_get_ne {α : Type} (d : α) (t : Tbl α) (k : Nat) (h : tblGet d t k ≠ d) :
    (k, tblGet d t k) ∈ t := by
  induction t with
  | nil => exact absurd rfl h
  | cons x t ih =>
    obtain ⟨j, w⟩ := x
    by_cases hk : k = j
    · subst hk; simp [tblGet]
    · simp only [tblGet, hk, if_false] at h ⊢
      exact List.mem_cons_of_mem _ (ih h)

/-- A route whose state is not FREE is among the active routes. -/
theorem State.mem_activeRoutes (s : State) (r : Nat) (h : (s.route r).state ≠ .free) : r ∈ s.activeRoutes := by
  have hne : tblGet {} s.routes r ≠ ({} : RouteRec) := fun e => h (by unfold State.route; rw [e])
  have := mem_tblKeys_of_get_ne _ _ _ hne
  simp only [State.activeRoutes, List.mem_map, List.mem_filter]
  exact ⟨_, ⟨this, by simpa [State.route] using h⟩, rfl⟩

/-- The EXIT routes that end at a BORDER element and are not FREE are tied to it (R154). -/
theorem State.mem_tiedRoutes_of_exit (s : State) (l : Link) (e r : Nat) (hk : s.routeKind r = some .exit)
    (hd : (s.rrow r).dest = e) (h : (s.route r).state ≠ .free) : r ∈ s.tiedRoutes l e := by
  unfold State.tiedRoutes
  simp [List.mem_filter, s.mem_activeRoutes r h, hk, hd]

theorem State.clearedFrom_iff (s : State) (e : Nat) :
    s.clearedFrom e = true ↔ ∃ r, (s.rrow r).start = e ∧ (s.route r).state = .cleared := by
  simp only [State.clearedFrom, List.any_eq_true, Bool.and_eq_true, beq_iff_eq]
  constructor
  · rintro ⟨r, _, h⟩; exact ⟨r, h⟩
  · rintro ⟨r, h1, h2⟩
    exact ⟨r, s.mem_activeRoutes r (by simp [h2]), h1, h2⟩

theorem State.kind_congr {s t : State} (h1 : t.store = s.store) (h2 : t.tablesValid = s.tablesValid) (e : Nat) :
    t.kind e = s.kind e := by
  simp only [State.kind, State.elemCount, State.erow, h1, h2]
  split <;> rfl

/-- Two states that hand on the same view of an element agree on its conditions. -/
theorem State.holds_congr {s t : State} (h1 : t.store = s.store) (h2 : t.tablesValid = s.tablesValid) (e : Nat)
    (hv : s.handView e = t.handView e) (c : Cond) : t.holds e c = s.holds e c := by
  have hk := State.kind_congr h1 h2 e
  simp only [State.handView, HandView.mk.injEq, Elem.mk.injEq] at hv
  obtain ⟨⟨a1, a2, a3, a4, a5, a6, a7, a8, a9, a10, a11, a12, -⟩, b1, b2, b3⟩ := hv
  simp only [State.holds, State.inControl, hk, ← a1, ← a2, ← a3, ← a4, ← a8, ← a9, ← a11, ← a12, ← b1, ← b2, ← b3]

/-- An event that leaves the tables, every element's view and the CLEARED routes as they were, and reaches no route. -/
structure Ev.Quiet (ev : Ev) : Prop where
  store : ev.s.store = ev.before.store
  tables : ev.s.tablesValid = ev.before.tablesValid
  reached : ev.reached = []
  view : ∀ e, ev.before.handView e = ev.s.handView e
  cleared : ∀ r, (ev.s.route r).state = .cleared ↔ (ev.before.route r).state = .cleared

/-- A quiet event only offers its reports. -/
theorem Ev.Quiet.settle {ev : Ev} (h : ev.Quiet) : ev.settle = ev.commit := by
  refine ev.settle_of_still ?_ h.reached ?_ ?_
  · simp only [changedElems, handedOn, List.filter_eq_nil_iff, bne_iff_ne, ne_eq, not_not]
    exact fun e _ => h.view e
  · intro r hr
    have hc : ∀ e, ev.s.clearedFrom e = ev.before.clearedFrom e := fun e => by
      rw [Bool.eq_iff_iff, State.clearedFrom_iff, State.clearedFrom_iff]
      simp only [h.cleared, State.rrow, h.store]
    have hb := (h.cleared r).1 hr
    unfold Ev.aspectDue
    simp only [hb, bne_self_eq_false, Bool.false_or, hc, State.holds_congr h.store h.tables _ (h.view _)]
    split <;> rfl
  · intro e _
    have hv := h.view e
    simp only [State.handView, HandView.mk.injEq, Elem.mk.injEq] at hv
    obtain ⟨⟨-, -, -, -, a5, a6, -⟩, -⟩ := hv
    unfold commandChanged
    split <;> simp [a5, a6]

end Sys2Proof.Machine
end

