-- ==== Sys2Proof/Laws/Reports.lean ====
section
/-! SUPPORT. What the order of an event's reports can be, said once (R174): `mergeOffers` offers every report of the event
once, each when no report that the rules order before it still waits, whatever the free choice. -/

namespace Sys2Proof.Machine

@[simp] theorem Src.base_part (q : Sequence) (k : Nat) (src : Src) : (Src.part q k src).base = src.base := rfl
@[simp] theorem Src.parts_part (q : Sequence) (k : Nat) (src : Src) : (Src.part q k src).parts = (q, k) :: src.parts := rfl

/-- The reports of an event, in the order they were raised, are offered in an order that the rules allow. -/
inductive OfferedIn : List Offer → List Offer → Prop where
  | none : OfferedIn [] []
  | next (held after rest : List Offer) (o : Offer) (free : ∀ a ∈ held, a.ordered o = false)
      (more : OfferedIn (held ++ after) rest) : OfferedIn (held ++ o :: after) (o :: rest)

/-- What stands ready is a report that none before it precedes, with the others as they stand. -/
theorem readyOffers_mem {held offers : List Offer} {x : Report × List Offer} (h : x ∈ readyOffers held offers) :
    ∃ mid o after, offers = mid ++ o :: after ∧ x = (o.rep, held ++ mid ++ after) ∧
      ∀ a ∈ held ++ mid, a.ordered o = false := by
  induction offers generalizing held with
  | nil => simp [readyOffers] at h
  | cons o t ih =>
    have later (h : x ∈ readyOffers (held ++ [o]) t) : ∃ mid o' after, o :: t = mid ++ o' :: after ∧
        x = (o'.rep, held ++ mid ++ after) ∧ ∀ a ∈ held ++ mid, a.ordered o' = false := by
      obtain ⟨mid, o', after, rfl, hx, hf⟩ := ih h
      exact ⟨o :: mid, o', after, rfl, by simpa using hx, by simpa using hf⟩
    unfold readyOffers at h
    dsimp only at h
    split at h
    · exact later h
    · next hh =>
      rcases List.mem_cons.1 h with rfl | h
      · exact ⟨[], o, t, rfl, by simp, by simpa using hh⟩
      · exact later h

/-- The first report raised is always ready. -/
theorem readyOffers_ne_nil (o : Offer) (t : List Offer) : readyOffers [] (o :: t) ≠ [] := by simp [readyOffers]

/-- Everything that the order of an event's reports can be. -/
theorem mergeOffers_offeredIn (event n k : Nat) (offers : List Offer) (h : offers.length ≤ n) :
    ∃ done, OfferedIn offers done ∧ mergeOffers event n k offers = done.map Offer.rep := by
  induction n generalizing k offers with
  | zero => exact ⟨[], by simp_all [OfferedIn.none], rfl⟩
  | succ n ih =>
    have step : ∀ x ∈ readyOffers [] offers, ∃ done, OfferedIn offers done ∧
        x.1 :: mergeOffers event n (k + 1) x.2 = done.map Offer.rep := fun x hx => by
      obtain ⟨mid, o, after, rfl, rfl, hf⟩ := readyOffers_mem hx
      obtain ⟨done, hd, he⟩ := ih (k + 1) (mid ++ after) (by simp at h ⊢; omega)
      exact ⟨o :: done, .next mid after done o (by simpa using hf) hd, by simp [he]⟩
    unfold mergeOffers
    split
    · next hr =>
      cases offers with
      | nil => exact ⟨[], .none, rfl⟩
      | cons o t => exact absurd hr (readyOffers_ne_nil o t)
    · next x hr => exact step x (by simp [hr])
    · next x y more hr =>
      refine step _ ?_
      rw [hr, List.getD_eq_getElem?_getD, List.getElem?_eq_getElem (Nat.mod_lt _ (by simp)), Option.getD_some]
      exact List.getElem_mem _

/-- Every report of the event is offered once. -/
theorem OfferedIn.perm {offers done : List Offer} (h : OfferedIn offers done) : done.Perm offers := by
  induction h with
  | none => exact .nil
  | next held after rest o _ _ ih => exact (ih.cons o).trans List.perm_middle.symm

/-- Reports that the rules order among themselves keep the order in which they were raised. -/
theorem OfferedIn.filter {offers done : List Offer} (h : OfferedIn offers done) (p : Offer → Bool)
    (hp : (offers.filter p).Pairwise (fun a b => a.ordered b = true)) : done.filter p = offers.filter p := by
  induction h with
  | none => rfl
  | next held after rest o free _ ih =>
    by_cases ho : p o = true
    · have he : held.filter p = [] := by
        rw [List.filter_append, List.filter_cons_of_pos ho, List.pairwise_append] at hp
        refine List.filter_eq_nil_iff.2 (fun a ha hpa => ?_)
        have hb := hp.2.2 a (List.mem_filter.2 ⟨ha, hpa⟩) o (by simp)
        simp [free a ha] at hb
      simp only [List.filter_append, List.filter_cons_of_pos ho, he, List.nil_append] at hp ih ⊢
      rw [ih (List.pairwise_cons.1 hp).2]
    · simp only [List.filter_append, List.filter_cons_of_neg ho] at hp ih ⊢
      exact ih hp

/-- The report of a link that a telegram brings UP is offered first, whatever the free choice (R34). -/
theorem mergeOffers_linkUp (event n k : Nat) (r : Report) (offers : List Offer) :
    mergeOffers event (n + 1) k (⟨.linkUp, r⟩ :: offers) = r :: mergeOffers event n (k + 1) offers := by
  have waits : ∀ (l held : List Offer), readyOffers (⟨.linkUp, r⟩ :: held) l = [] := fun l => by
    induction l with
    | nil => intro held; rfl
    | cons o t ih => intro held; simp [readyOffers, Offer.ordered, ih]
  have ready : readyOffers [] (⟨.linkUp, r⟩ :: offers) = [(r, offers)] := by simp [readyOffers, waits]
  rw [mergeOffers, ready]

/-- Reports of one source are offered in their order, whatever the free choice. -/
theorem mergeOffers_one (event n : Nat) (src : Src) (rs : List Report) (k : Nat) (h : rs.length ≤ n) :
    mergeOffers event n k (rs.map (fun r => ⟨src, r⟩)) = rs := by
  obtain ⟨done, hd, he⟩ := mergeOffers_offeredIn event n k (rs.map (fun r => ⟨src, r⟩)) (by simpa using h)
  have ht : ∀ l : List Offer, l.filter (fun _ => true) = l := fun l => List.filter_eq_self.2 (by simp)
  have hf := hd.filter (fun _ => true) (by
    rw [ht]
    exact List.pairwise_map.2 (List.pairwise_of_forall (fun _ _ => by simp [Offer.ordered])))
  rw [ht, ht] at hf
  simp [he, hf, Function.comp_def]

end Sys2Proof.Machine
end

