-- ==== Sys2Proof/Laws/Request.lean ====
section
/-! SUPPORT. The link watch at a valid telegram, the judgement of a request, and the fields that the end of an event
leaves alone. -/

namespace Sys2Proof.Machine

/-- The fields that the end of an event, and every operation of the SE, the FR, the RM, the TB and the BLs, leaves
alone. -/
theorem HandedOn.fields {u t : State} (h : HandedOn u t) :
    t.pending = u.pending ∧ t.store = u.store ∧ t.storedCrc = u.storedCrc ∧ t.tablesValid = u.tablesValid ∧
    t.blocked = u.blocked ∧ t.auxCounter = u.auxCounter ∧ t.mode = u.mode ∧ t.safeN = u.safeN ∧
    t.startupDeadline = u.startupDeadline ∧ t.restartPending = u.restartPending ∧ t.life = u.life ∧
    t.dmap = u.dmap ∧ t.linkC = u.linkC ∧ t.linkF = u.linkF ∧ t.linkB1 = u.linkB1 ∧ t.linkB2 = u.linkB2 ∧
    t.requests = u.requests ∧ t.tick = u.tick ∧ t.atTick = u.atTick ∧ t.auxTimer = u.auxTimer ∧
    t.offerRef1 = u.offerRef1 ∧ t.offerRef2 = u.offerRef2 ∧ t.auxPending = u.auxPending ∧
    t.lostPorts = u.lostPorts ∧ t.mask = u.mask ∧ t.seq = u.seq ∧ t.events = u.events := by
  have f := h.frame
  and_intros <;> (rw [f]; rfl)

/-- A valid telegram on the C-port or F-port, or on a B-link that it does not bring UP: the link record counts it. -/
theorem Ev.validTelegram_eq (s : State) (p : Port) (h : portLink p = none ∨ s.comesUp p = false) :
    (Ev.start s).validTelegram p = ⟨s, s.taken p, s.linkOffers p, []⟩ := by
  have hl : ({ s with events := s.events + 1 } : State).link p = s.link p := by cases p <;> rfl
  have hd : ∀ n, ({ s with events := s.events + 1 } : State).deadlineAfter n = s.deadlineAfter n := fun _ => rfl
  have ht : ({ s with events := s.events + 1 } : State).linkTimeout p = s.linkTimeout p := by cases p <;> rfl
  have hset : ∀ x, ({ s with events := s.events + 1 } : State).setLink p x
      = { s.setLink p x with events := s.events + 1 } := fun x => by cases p <;> rfl
  unfold Ev.validTelegram
  simp only [Ev.start, Ev.on, Ev.raise, hl, hd, ht, hset]
  by_cases h1 : (s.link p).state = .up
  · have hc : s.comesUp p = false := by simp [State.comesUp, h1]
    simp [h1, State.linkOffers, State.taken, State.heardOn, hc]
  · by_cases h2 : (s.link p).count + 1 < 3
    · have hc : s.comesUp p = false := by simp [State.comesUp, h2]
      simp [h1, h2, State.linkOffers, State.taken, State.heardOn, hc]
    · have hc : s.comesUp p = true := by simp [State.comesUp, h1, h2]
      have hp : portLink p = none := by simpa [hc] using h
      simp [h1, h2, State.linkOffers, State.taken, State.heardOn, hc, hp]

/-- A request that its mode, length and range admit goes to its owner. -/
theorem takeRequest_of_admits (q : Req) (tag : Half) (p : List Byte) (body : Ev → Ev) (s : State)
    (h : s.admits q p = true) :
    takeRequest q tag p body s = (body ⟨s, s.taken .c, s.linkOffers .c, []⟩).settle := by
  simp only [State.admits, Bool.and_eq_true, Option.isNone_iff_eq_none] at h
  unfold takeRequest Ev.judge
  rw [Ev.validTelegram_eq s .c (.inl rfl)]
  have hm : modeAnswer (s.taken .c).mode q = none := h.1.2
  simp [h.1.1, h.2, hm]

/-- An element's hand-on view in two states that agree on what it reads. -/
theorem State.handView_congr {s t : State} (h1 : t.store = s.store) (h2 : t.tablesValid = s.tablesValid)
    (h3 : t.elems = s.elems) (h4 : t.blocked = s.blocked) (h5 : t.linkB1.state = s.linkB1.state)
    (h6 : t.linkB2.state = s.linkB2.state) (e : Nat) (h7 : (t.transOf e).state = (s.transOf e).state) :
    s.handView e = t.handView e := by
  have hk := State.kind_congr h1 h2 e
  have he : t.elem e = s.elem e := by simp only [State.elem, h3]
  have hb : t.isBlocked e = s.isBlocked e := by simp only [State.isBlocked, h4]
  have hl : ∀ l : Link, (t.link l.port).state = (s.link l.port).state := fun l => by
    cases l <;> simp [State.link, Link.port, h5, h6]
  have hel : t.elemLink e = s.elemLink e := by simp only [State.elemLink, State.erow, h1]
  simp only [State.handView, State.supervised, State.linkHolds, hk, he, hb, h7, hel]
  split <;> simp [hl]

/-- What of an event's state must stand for the event to be quiet. -/
theorem Ev.quiet_of {ev : Ev} (hr : ev.reached = []) (h1 : ev.s.store = ev.before.store)
    (h2 : ev.s.tablesValid = ev.before.tablesValid) (h3 : ev.s.elems = ev.before.elems)
    (h4 : ev.s.blocked = ev.before.blocked) (h5 : ev.s.linkB1.state = ev.before.linkB1.state)
    (h6 : ev.s.linkB2.state = ev.before.linkB2.state)
    (h7 : ∀ e, (ev.s.transOf e).state = (ev.before.transOf e).state)
    (h8 : ∀ r, (ev.s.route r).state = .cleared ↔ (ev.before.route r).state = .cleared) : ev.Quiet :=
  ⟨h1, h2, hr, fun e => State.handView_congr h1 h2 h3 h4 h5 h6 e (h7 e), h8⟩

/-- Reports offered to the queue leave the mask as it is. -/
@[simp] theorem State.reporting_mask (u : State) (offers : List Offer) : (u.reporting offers).mask = u.mask := by
  have h := congrArg State.mask
    (HandedOn.foldl id State.offer State.offer_handedOn (mergeOffers u.events offers.length 0 offers) u).frame
  exact h

/-- The event's reports are judged by the mask at its beginning, which most events leave alone. -/
theorem Ev.commit_of_mask {ev : Ev} (h : ev.s.mask = ev.before.mask) : ev.commit = ev.s.reporting ev.offers := by
  have h1 : ({ ev.s with mask := ev.before.mask } : State) = ev.s := by rw [← h]
  unfold Ev.commit
  rw [h1]
  change ({ ev.s.reporting ev.offers with mask := ev.s.mask } : State) = _
  conv_lhs => rw [← State.reporting_mask ev.s ev.offers]

/-- The end of a quiet event, its parts written out. -/
theorem settle_of_same (s u : State) (offers : List Offer) (h1 : u.store = s.store) (h2 : u.tablesValid = s.tablesValid)
    (h3 : u.elems = s.elems) (h4 : u.blocked = s.blocked) (h5 : u.linkB1.state = s.linkB1.state)
    (h6 : u.linkB2.state = s.linkB2.state) (h7 : ∀ e, (u.transOf e).state = (s.transOf e).state)
    (h8 : ∀ r, (u.route r).state = .cleared ↔ (s.route r).state = .cleared) (h9 : u.mask = s.mask) :
    Ev.settle ⟨s, u, offers, []⟩ = u.reporting offers :=
  (Ev.quiet_of (ev := ⟨s, u, offers, []⟩) rfl h1 h2 h3 h4 h5 h6 h7 h8).settle.trans (Ev.commit_of_mask h9)

end Sys2Proof.Machine
end

