-- ==== Sys2Proof/Laws/Settle.lean ====
section
/-! SUPPORT. What the last parts of an event leave alone: the Command Telegrams change only the telegrams sent, and the
reports only the report queue. What the image, the routes and the transactions hold after an event is therefore what the
Setting Engine and the Route Monitor left. -/

namespace Sys2Proof.Machine

set_option Elab.async false

/-- Offering a report changes only the report queue and what R176 keeps beside it. -/
theorem State.offer_reports (s : State) (r : Report) : s.offer r = s.withReportsOf (s.offer r) := by
  unfold State.offer State.placeReport State.loseReport
  repeat' split
  all_goals rfl

theorem State.foldl_offer_reports (rs : List Report) (s : State) :
    rs.foldl State.offer s = s.withReportsOf (rs.foldl State.offer s) := by
  induction rs generalizing s with
  | nil => rfl
  | cons r rs ih =>
    have h := ih (s.offer r)
    rw [s.offer_reports r] at h
    rw [List.foldl_cons, s.offer_reports r]
    exact h

/-- The end of an event offers its reports and changes nothing else. -/
theorem Ev.commit_reports (ev : Ev) : ev.commit = ev.s.withReportsOf ev.commit := by
  unfold Ev.commit
  have h := State.foldl_offer_reports (mergeOffers ev.s.events ev.offers.length 0 ev.offers)
    { ev.s with mask := ev.before.mask }
  have h2 := congrArg (fun x : State => { x with mask := ev.s.mask }) h
  exact h2

/-- Command Telegrams change only the telegrams sent. -/
theorem Ev.sendChanges_sent (ev : Ev) : ev.sendChanges.s = { ev.s with sent := ev.sendChanges.s.sent } := by
  have h : ∀ (fs : List Nat) (s : State),
      fs.foldl State.sendCommand s = { s with sent := (fs.foldl State.sendCommand s).sent } := by
    intro fs
    induction fs with
    | nil => intro s; rfl
    | cons f fs ih => intro s; exact ih (s.sendCommand f)
  exact h _ _

theorem foldl_handToCpc_s (es : List Nat) (ev : Ev) : (es.foldl Ev.handToCpc ev).s = ev.s := by
  induction es generalizing ev with
  | nil => rfl
  | cons e es ih => exact (ih (ev.handToCpc e)).trans (ev.handToCpc_s e)

/-- The state of an event once the Setting Engine and the Route Monitor have been handed its changes. -/
def Ev.handed (ev : Ev) : State := ev.handToSetting.monitor.s

/-- A change of the telegrams sent, then of the reports. -/
theorem State.sent_then_reports {u v t : State} (hv : v = { u with sent := v.sent }) (ht : t = v.withReportsOf t) :
    t = { u.withReportsOf t with sent := t.sent } := by
  have hs : t.sent = v.sent := by
    have h := congrArg State.sent ht
    exact h
  rw [hs]
  generalize v.sent = x at *
  subst hv
  exact ht

/-- The end of an event: what the blocks left, but for the telegrams sent and the reports. -/
theorem Ev.settle_handed (ev : Ev) :
    ev.settle = { ev.handed.withReportsOf ev.settle with sent := ev.settle.sent } := by
  unfold Ev.handed
  have hv := ev.handToSetting.monitor.sendChanges_sent
  generalize hu : ev.handToSetting.monitor.sendChanges = u at hv
  have ht := ((changedElems u.before u.s).foldl Ev.handToCpc u).commit_reports
  rw [foldl_handToCpc_s] at ht
  have he : ev.settle = ((changedElems u.before u.s).foldl Ev.handToCpc u).commit := by
    unfold Ev.settle
    dsimp only
    rw [hu]
  rw [← he] at ht
  clear he hu
  generalize ev.settle = w at ht ⊢
  generalize ev.handToSetting.monitor.s = m at hv ⊢
  exact State.sent_then_reports hv ht

/-- What a read finds in a state that differs from another in the telegrams sent and the reports alone. -/
theorem State.reads_of_handed {u t : State} (h : t = { u.withReportsOf t with sent := t.sent }) :
    (∀ e, t.elem e = u.elem e) ∧ (∀ r, t.route r = u.route r) ∧ (∀ c, t.ctx c = u.ctx c) ∧
    (∀ e, t.transOf e = u.transOf e) ∧ (∀ e c, t.holds e c = u.holds e c) ∧ (∀ x, t.entryClear x = u.entryClear x) ∧
    ∀ r g, t.groupVacant r g = u.groupVacant r g := by
  rw [h]
  exact ⟨fun _ => rfl, fun _ => rfl, fun _ => rfl, fun _ => rfl, fun _ c => by cases c <;> rfl, fun _ => rfl,
    fun _ _ => rfl⟩

@[simp] theorem Ev.settle_elem (ev : Ev) (e : Nat) : ev.settle.elem e = ev.handed.elem e :=
  (State.reads_of_handed ev.settle_handed).1 e
@[simp] theorem Ev.settle_route (ev : Ev) (r : Nat) : ev.settle.route r = ev.handed.route r :=
  (State.reads_of_handed ev.settle_handed).2.1 r
@[simp] theorem Ev.settle_ctx (ev : Ev) (c : Nat) : ev.settle.ctx c = ev.handed.ctx c :=
  (State.reads_of_handed ev.settle_handed).2.2.1 c
@[simp] theorem Ev.settle_transOf (ev : Ev) (e : Nat) : ev.settle.transOf e = ev.handed.transOf e :=
  (State.reads_of_handed ev.settle_handed).2.2.2.1 e
@[simp] theorem Ev.settle_holds (ev : Ev) (e : Nat) (c : Cond) : ev.settle.holds e c = ev.handed.holds e c :=
  (State.reads_of_handed ev.settle_handed).2.2.2.2.1 e c
@[simp] theorem Ev.settle_entryClear (ev : Ev) (x : ListRow) : ev.settle.entryClear x = ev.handed.entryClear x :=
  (State.reads_of_handed ev.settle_handed).2.2.2.2.2.1 x
@[simp] theorem Ev.settle_groupVacant (ev : Ev) (r g : Nat) : ev.settle.groupVacant r g = ev.handed.groupVacant r g :=
  (State.reads_of_handed ev.settle_handed).2.2.2.2.2.2 r g

end Sys2Proof.Machine
end

