-- ==== Sys2Proof/Tests/Slice0.lean ====
section
/-! SUPPORT. Small tests of the model, a smoke test of well-formedness with an ill-formed term for each check, and for
each statement with hypotheses a witness: concrete states and operands that meet the hypotheses of each of its clauses
together. -/

namespace Sys2Proof.Tests

open Sys2Proof.Machine

set_option Elab.async false

/-! ### A small yard -/

/-- Elements: points 0105 and 0101, sections 0102, 0103 and 0104, signals 0201 and 0202, border 0301 on link B1. -/
def yardElems : Memory :=
  [(0, 1), (1, 1), (2, 1), (3, 1), (6, 20), (8, 1), (9, 3), (10, 1), (11, 2), (12, 1), (13, 1), (18, 3), (19, 1),
   (20, 3), (21, 1), (22, 2), (27, 2), (28, 2), (29, 1), (30, 1), (31, 3), (36, 2), (37, 2), (38, 2), (39, 2),
   (41, 1), (45, 4), (46, 3), (47, 1), (48, 1), (53, 2), (54, 3), (55, 1), (56, 4), (57, 2), (58, 1), (63, 1),
   (64, 1), (65, 5), (66, 2), (67, 2), (69, 30), (71, 6)]

/-- Routes: 0 MAIN from 0201 to 0202, 1 EXIT from 0201 to 0301, 2 ENTRY from 0301 to 0202, each of variant 0. -/
def yardRoutes : Memory :=
  [(4609, 3), (4611, 4), (4613, 1), (4616, 2), (4618, 2), (4619, 1), (4621, 3), (4622, 1), (4624, 4), (4625, 1),
   (4626, 1), (4628, 100), (4629, 10), (4630, 5), (4631, 10), (4633, 6), (4635, 3), (4637, 5), (4639, 3),
   (4641, 5), (4642, 1), (4652, 1), (4654, 50), (4655, 20), (4656, 2), (4659, 5), (4661, 5), (4663, 4), (4665, 4),
   (4667, 6), (4668, 1), (4678, 1), (4680, 60), (4681, 30), (4685, 6)]

/-- The lists of the routes, the flank entry of point 0105 and the site parameters. -/
def yardLists : Memory :=
  [(14592, 1), (14594, 1), (14596, 1), (14601, 1), (14604, 1), (14605, 1), (14610, 2), (14612, 2), (14619, 3),
   (14621, 6), (14628, 4), (14632, 1), (14637, 1), (14639, 1), (14641, 1), (14646, 1), (14648, 2), (14650, 1),
   (125185, 7), (125186, 1), (125187, 255), (125188, 255), (130305, 8), (130307, 3), (130312, 1), (130313, 2),
   (130314, 2), (130315, 5), (130317, 30)]

/-- The tables of the yard. -/
def yard : Memory := yardElems ++ yardRoutes ++ yardLists

/-- A link in UP. -/
def linkUp : LinkRec := { state := .up, timer := some 900 }

/-- Every element supervised, points at LEFT, sections VACANT, signals at DANGER, the neighbour section VACANT. -/
def calm : Tbl Elem :=
  [(0, { reported := .left, pointCmd := .left, deadline := some 500 }), (1, { reported := .vacant, deadline := some 500 }),
   (2, { reported := .vacant, deadline := some 500 }), (3, { reported := .dangerLit, deadline := some 500 }),
   (4, { reported := .dangerLit, deadline := some 500 }), (5, { nbr := .vacant, heard := true }),
   (6, { reported := .vacant, deadline := some 500 }), (7, { reported := .left, pointCmd := .left, deadline := some 500 })]

/-- The yard in OPERATIONAL, at rest between two base ticks. -/
def live : State :=
  { store := yard, tablesValid := true, dmap := buildMap yard, mode := .operational, safeN := true, elems := calm,
    linkC := linkUp, linkF := linkUp, linkB1 := linkUp, tick := 100 }

/-- The yard in MAINTENANCE with its tables loaded. -/
def shut : State := { live with mode := .maintenance, safeN := false }

/-- The yard with the record of one route. -/
def routed (r : Nat) (w : RouteRec) : State := { live with routes := [(r, w)] }

/-- The yard with the transaction of its border. -/
def traded (x : TransState) (reference : Option Byte) : State :=
  { live with trans := [(5, { state := x, reference := reference })] }

/-- The yard at the instant of a base tick. -/
def struck (tick : Nat) (s : State) : State := { s with tick := tick, atTick := true }

/-- The state after a command. -/
def after (i : Instr) (s : State) : State :=
  match exec i s with
  | .next t => t
  | _ => s

/-- The state of an event once the blocks have been handed its changes, before its reports are offered. -/
def handed (ev : Ev) : State := ev.handToSetting.monitor.s

/-- The key of the MAIN route. -/
def mainKey : List Byte := [0x02, 0x01, 0x02, 0x02, 0]
/-- The key of the EXIT route. -/
def exitKey : List Byte := [0x02, 0x01, 0x03, 0x01, 0]
/-- The key of the ENTRY route. -/
def entryKey : List Byte := [0x03, 0x01, 0x02, 0x02, 0]
/-- A transaction telegram for border point 0 under reference 5 that names the ENTRY route. -/
def offered : List Byte := [0, 5, 0, 0x02, 0x02, 0]

/-- A Status Telegram of FEC 1 with life count 7, section 0102 and 0103 VACANT, signal 0201 at DANGER and the point field
given, its last throw time 9 (0.9 s). -/
def fieldBytes (point : Byte) (check : Half) : List Byte :=
  [0x10, 0x01, 0, 0, 0, 0x0A, 0x01, 0x07, point, 0x21, 0x21, 0x31, 9, 0, 0, 0] ++ halfBytes check
/-- Its payload. -/
def fieldPayload (point : Byte) : List Byte := [0x01, 0x07, point, 0x21, 0x21, 0x31, 9, 0, 0, 0]

/-! ### Well-formedness: an ill-formed term for each check -/

theorem test_wf_payload : (Instr.setRoute 0 (List.replicate 65536 0)).wf = false := by
  show decide ((List.replicate 65536 (0 : Byte)).length < 65536) = false
  rw [List.length_replicate]
  rfl
theorem test_wf_unknownKind : (Instr.unknownKind [0x02, 0x03, 0x00, 0x09, 0, 0, 0xF5, 0x13]).wf = false := by decide +kernel
theorem test_wf_borderStatus : (Instr.borderStatus .b1 [1, 0, 0x21]).wf = false := by decide +kernel
theorem test_wf_offer : (Instr.offer .b1 [0, 5, 0, 0x02, 0x02]).wf = false := by decide +kernel
theorem test_wf_accept : (Instr.accept .b1 []).wf = false := by decide +kernel
theorem test_wf_decline : (Instr.decline .b1 []).wf = false := by decide +kernel
theorem test_wf_withdraw : (Instr.withdraw .b1 []).wf = false := by decide +kernel
theorem test_wf_handback : (Instr.handback .b1 []).wf = false := by decide +kernel
theorem test_wf_invalidBorder :
    (Instr.invalidBorderTelegram .b1 [0x20, 0x11, 0, 0, 0, 6, 0, 5, 0, 2, 2, 0, 0xED, 0x5D]).wf = false := by decide +kernel
theorem test_wf_element : (Instr.supervisionLoss 512).wf = false ∧ (Instr.throwTimeout 512).wf = false := by decide +kernel
theorem test_wf_timers : (Instr.releaseTimerExpiry 32).wf = false ∧ (Instr.contextTimerExpiry 4).wf = false := by decide +kernel
theorem test_wf_fec : (Instr.commandRefresh 0).wf = false ∧ (Instr.commandRefresh 201).wf = false := by decide +kernel
theorem test_wf_rate : (Instr.rateTick 8).wf = false := by decide +kernel

/-! ### Telegrams written out byte by byte from sections 12.1 to 12.5 -/

theorem test_decode_setRoute :
    decodeTelegram .c [0x01, 0x01, 0x12, 0x34, 0x00, 0x05, 0x02, 0x01, 0x02, 0x02, 0x00, 0xC6, 0x1F] =
      .setRoute 0x1234 mainKey := by decide +kernel
theorem test_decode_readIndications :
    decodeTelegram .c [0x02, 0x03, 0x00, 0x09, 0x00, 0x00, 0xF5, 0x13] = .readIndications 9 [] := by decide +kernel
theorem test_decode_offer :
    decodeTelegram .b1 [0x20, 0x11, 0, 0, 0, 6, 0, 5, 0, 2, 2, 0, 0xED, 0x5D] = .offer .b1 offered := by decide +kernel
theorem test_decode_wrongCrc :
    decodeTelegram .c [0x02, 0x03, 0x00, 0x09, 0x00, 0x00, 0xF5, 0x12] =
      .unknownKind [0x02, 0x03, 0x00, 0x09, 0x00, 0x00, 0xF5, 0x12] := by decide +kernel
theorem test_statusPayload : statusPayload (fieldBytes 0x12 0x7ACA) = some (fieldPayload 0x12) := by decide +kernel

/-! ### Single commands. The expected values are read from the rules named -/

/-- The yard passes every check of Verify Tables (R180). -/
theorem test_yard_checks : checkTables yard = none := by decide +kernel
/-- The settings of section 4.6: the worked case, the route of Chapter 3 with its overlap, and the two limits. -/
theorem test_timerSetting :
    timerSetting 74000 = { rate := 5, preload := 23, clamped := false } ∧
    timerSetting 42400 = { rate := 5, preload := 122, clamped := false } ∧
    timerSetting 30000 = { rate := 4, preload := 67, clamped := false } ∧
    timerSetting 100 = { rate := 0, preload := 245, clamped := false } ∧
    timerSetting 3068800 = { rate := 7, preload := 0, clamped := true } := by decide +kernel
/-- The approach time of 100 m at 10 km/h with a margin of 5 s is 36 s + 5 s (R61). -/
theorem test_approachTime : live.requiredMs 0 .approach = 41000 := by decide +kernel
/-- A request for a route not set is queued (R75). -/
theorem test_setRoute : ((after (.setRoute 7 mainKey) live).route 0).state = .queued := by decide +kernel
/-- With every point in position, nothing is awaited: the route locks and clears at its reservation (R81, R87, R116). -/
theorem test_reservation :
    ((handed ((Ev.start
      { routed 0 { state := .queued, origin := some (.control 7) } with requests := [⟨0, .control 7⟩] }).reservation 0
        ⟨0, .control 7⟩)).route 0).state = .cleared := by decide +kernel
/-- A point that reports its other end position with no throw running has moved uncommanded (R18). -/
theorem test_uncommanded : (((Ev.start live).statusJudged (fieldPayload 0x12)).s.elem 0).fault = true := by decide +kernel
/-- A section of the path becomes OCCUPIED under a cleared route: the train has entered and the signal shows DANGER
(R122). -/
theorem test_trainEntry :
    let s := { routed 0 { state := .cleared, wasCleared := true, groups := [.reserved], aspect := .caution } with
      elems := tblPut calm 3 { reported := .proceedLit, aspect := .caution, deadline := some 500 } }
    let t := handed ((Ev.start s).on (fun s => s.modElem 1 (fun r => { r with reported := .occupied })))
    (t.route 0).state = .inUse ∧ (t.elem 3).aspect = .danger := by decide +kernel
/-- The Offer of a neighbour queues the ENTRY route with its origin (R77). -/
theorem test_offer : ((after (.offer .b1 offered) live).route 2).origin = some (.neighbour .b1 5) := by decide +kernel
/-- A Withdraw of the reservation held frees the transaction (R149). -/
theorem test_withdraw : (handed ((Ev.start (traded .inHeld (some 5))).withdraw .b1 (borderTxOf .withdraw offered) 5)).transOf 5 = {} := by decide +kernel
/-- The third valid telegram in DOWN brings the C-port link UP (R34). -/
theorem test_linkUp :
    (after (.readIndications 9 []) { live with linkC := { count := 2 } }).linkC.state = .up := by decide +kernel
/-- A count of 255 goes to 0 and expires (R60). -/
theorem test_rateTick :
    ((after (.rateTick 2) (struck 100 { live with
      ctxTimers := [(1, some { rate := 2, count := 255, bornAt := none, expired := false })] })).ctxTimer 1) =
      some { rate := 2, count := 0, bornAt := none, expired := true } := by decide +kernel
/-- The C-port loss discards the pending auxiliary command (R161). -/
theorem test_auxDiscard :
    (handed ((Ev.start { live with auxPending := some ⟨.sectionReset 1, 7⟩ }).linkLost .c)).auxPending = none := by
  decide +kernel
/-- The order in which an event's reports are offered, told by their kinds: 2 a Route Report, 3 a Border Report, 4 a
Fault Report. -/
def offeredKinds (ev : Ev) : List Nat :=
  (mergeOffers ev.s.events ev.offers.length 0 ev.offers).map (fun x =>
    match x with
    | .route _ => 2
    | .border _ => 3
    | .fault _ => 4
    | _ => 0)
/-- The Border Report of a full release stands before the RELEASED (R133 steps 4 and 6). -/
theorem test_order_release :
    offeredKinds ((Ev.start { traded .heldOut (some 5) with
      routes := [(1, { state := .locked, groups := [.reserved] })] }).fullRelease 1) = [3, 2] := by decide +kernel
/-- The Border Report of a Withdraw stands before the RELEASED of the entry route (R149). -/
theorem test_order_withdraw :
    offeredKinds ((Ev.start { traded .inHeld (some 5) with
      routes := [(2, { state := .locked, origin := some (.neighbour .b1 5), groups := [.reserved] })] }).withdraw .b1
        (borderTxOf .withdraw offered) 5) = [3, 2] := by decide +kernel
/-- The Border Report of a FORCED_BORDER_CLEAR stands before the RELEASED of the route tied to the border (R154). -/
theorem test_order_forcedClear :
    offeredKinds ((Ev.start { traded .heldOut (some 5) with
      routes := [(1, { state := .locked, groups := [.reserved] })] }).forcedBorderClear .b1 5) = [3, 2] := by
  decide +kernel
/-- The REFUSED of a failed context stands before the Border Report of its Decline (R89). -/
theorem test_order_failure :
    offeredKinds ((Ev.start { live with
      routes := [(2, { state := .setting, context := some 0, origin := some (.neighbour .b1 5) })],
      contexts := [(0, some { route := 2, awaited := [], reply := false, offerRef := none })] }).failCtx 0 .pointFailed 0
        true) = [2, 3] := by decide +kernel
/-- The report of the link that an Offer brings UP stands before the QUEUED of its entry route (R34). -/
theorem test_order_linkUp :
    offeredKinds (((Ev.start { live with linkB1 := { count := 2 } }).validTelegram .b1).offer .b1
      (borderTxOf .offer offered)) = [4, 2] := by decide +kernel

/-! ### Witnesses: the hypotheses of each statement, clause by clause -/

/-- Whether a lookup finds a value. -/
def isOk {α : Type} [DecidableEq α] (x : Except ReplyCode α) (a : α) : Bool :=
  match x with
  | .ok b => b = a
  | .error _ => false

/-- Whether a result is an error. -/
def isError {ε α : Type} [DecidableEq ε] (x : Except ε α) (c : ε) : Bool :=
  match x with
  | .ok _ => false
  | .error d => d = c

theorem eq_ok {α : Type} [DecidableEq α] {x : Except ReplyCode α} {a : α} (h : isOk x a = true) : x = .ok a := by
  cases x <;> simp_all [isOk]

theorem eq_error {ε α : Type} [DecidableEq ε] {x : Except ε α} {c : ε} (h : isError x c = true) : x = .error c := by
  cases x <;> simp_all [isError]

/-- Whether a reservation passes its tests with a flank resolution. -/
theorem eq_okList {x : Except Refused (List FlankRec)} {l : List FlankRec}
    (h : (match x with | .ok b => decide (b = l) | .error _ => false) = true) : x = .ok l := by
  cases x <;> simp_all

theorem witness_StepTakesFrontCommand : ({ live with pending := [.reportSend] } : State).pending = .reportSend :: [] := rfl

/-- The branches: a reservation, another event that follows at once, an event still due at the tick, the instant of a base
tick, between two base ticks. -/
theorem witness_IdleStepMovesTimeBase :
    (live.pending = [] ∧ live.tick < 3840000 ∧ live.consequences = [] ∧ live.due = [] ∧ live.atTick = false) ∧
    ({ live with requests := [⟨0, .control 7⟩] } : State).nextReservation ≠ none ∧
    ({ live with due := [.rateTick 0] } : State).consequences = [] ∧
    ((struck 3839999 live).pending = [] ∧ (struck 3839999 live).tick < 3840000 ∧ (struck 3839999 live).atTick = true) ∧
    (({ live with restartPending := true } : State).pending = [] ∧
      ({ live with restartPending := true } : State).consequences ≠ []) := by decide +kernel

theorem witness_CommandsLeaveQueue : ∃ t, exec .reportSend live = .next t := ⟨_, rfl⟩

/-- The yard meets the invariant. -/
theorem live_inv : live.Inv where
  store := by decide +kernel
  queue := by decide +kernel
  queueOne := by intro e; exact Nat.zero_le _
  requests := by decide +kernel
  safeN := by decide +kernel
  tick := by decide +kernel
  lost := by decide +kernel
  auxTimer := by decide +kernel
  auxMode := by decide +kernel
  startup := by decide +kernel
  map := by decide +kernel
  tables := by decide +kernel
  routes := by intro h; exact absurd h (by decide +kernel)
  contexts := by intro h; exact absurd h (by decide +kernel)

theorem witness_StepKeepsInvariant : ∃ s t : State, s.Inv ∧ step s = .next t := ⟨live, _, live_inv, rfl⟩

/-- The state after reset, with the two invariants, and a step from it. -/
theorem witness_StepKeepsOwnership : ∃ s t : State, s.Inv ∧ s.Owned ∧ step s = .next t := by
  refine ⟨State.reset, _, ?_, ?_, rfl⟩
  · exact {
      store := by decide +kernel, queue := by decide +kernel, queueOne := fun e => Nat.zero_le _,
      requests := by decide +kernel, safeN := by decide +kernel, tick := by decide +kernel, lost := by decide +kernel,
      auxTimer := by decide +kernel, auxMode := by decide +kernel, startup := by decide +kernel, map := fun _ => rfl,
      tables := fun h => absurd rfl h, routes := fun _ _ => rfl, contexts := fun _ _ _ => rfl }
  · have free : ∀ r, (State.reset.route r).state = .free := fun _ => rfl
    exact {
      routesWf := by decide +kernel
      tables := fun r h => absurd h (Nat.not_lt_zero r)
      inForce := fun r h => absurd (free r) h
      free := fun _ _ => rfl
      waiting := fun _ _ => ⟨rfl, rfl⟩
      requests := fun r => ⟨fun h => absurd (h.symm.trans (free r)) (by decide), fun ⟨q, h, _⟩ => absurd (h : q ∈ []) List.not_mem_nil⟩
      requestsOnce := List.nodup_nil
      context := fun c x h => (nomatch (show (none : Option Ctx) = some x from h))
      setting := fun r h => absurd (h.symm.trans (free r)) (by decide)
      noContext := fun _ _ => rfl
      stopped := fun _ _ => rfl
      claims := fun _ => rfl
      noClaims := fun _ _ => rfl
      timer := fun i h e => (nomatch (show (none : Option HeldTimer) = some h from e))
      timerHeld := fun r i e => (nomatch (show (none : Option Nat) = some i from e))
      deferred := fun r => ⟨fun h => (nomatch (show false = true from h)), fun ⟨w, h, _⟩ => absurd (h : w ∈ []) List.not_mem_nil⟩
      deferredHolds := fun _ _ => rfl
      waitOnce := List.nodup_nil
      waitPurpose := fun w h => absurd (h : w ∈ []) List.not_mem_nil
      offered := fun e => ⟨fun h => (nomatch (show TransState.idle = .offerSent from h)),
        fun ⟨c, x, h, _⟩ => (nomatch (show (none : Option Ctx) = some x from h))⟩
      offerLocks := fun c x h => (nomatch (show (none : Option Ctx) = some x from h))
      entryLocks := fun r _ h => absurd (h.symm.trans (free r)) (by decide)
      entryOnce := fun e r q h _ => absurd h.2.2 (by rw [free r]; decide)
      entryHeld := fun e r h => (nomatch (show TransState.idle = .inHeld from h))
      outside := fun _ => ⟨rfl, fun _ => rfl, fun r h => absurd ((free r).symm.trans h) (by decide)⟩ }

theorem witness_NoRouteClearsOutsideOperational :
    (routed 0 { state := .cleared }).mode = .operational ∧ shut.mode ≠ .operational ∧
      ∃ t, exec .reportSend shut = .next t := ⟨by decide +kernel, by decide +kernel, _, rfl⟩

/-- A stored CRC-32 that matches, and one that does not. -/
theorem witness_PowerOnReset :
    (∃ s : State, s.tablesValid = true ∧ tableCrc s.store = s.storedCrc) ∧
    (∃ s : State, s.tablesValid = true ∧ tableCrc s.store ≠ s.storedCrc) ∧ State.reset.tablesValid = false := by
  refine ⟨⟨{ live with storedCrc := tableCrc yard }, rfl, rfl⟩, ⟨{ live with storedCrc := tableCrc yard + 1 }, rfl, ?_⟩, rfl⟩
  show tableCrc yard ≠ tableCrc yard + 1
  generalize tableCrc yard = c
  simp

theorem witness_RestartReset :
    ({ shut with restartPending := true } : State).restartPending = true ∧ shut.restartPending = false ∧
      shut.admits .restart [] = true := by decide +kernel

theorem witness_BadLength : Req.setRoute.lengthFits [1, 2] = false ∧ Req.verifyTables.lengthFits [1] = false := by
  decide +kernel

theorem witness_ModeRefuses :
    (Req.setRoute.lengthFits mainKey = true ∧ Req.setRoute.cls = .operation ∧ ({ live with mode := .startup } : State).mode = .startup) ∧
    (shut.mode = .maintenance ∧ ({ live with mode := .safeStop } : State).mode = .safeStop) ∧
    (Req.leaveOperation.lengthFits [] = true ∧ Req.leaveOperation.cls = .maintenance) ∧
    (Req.enterOperation.lengthFits [] = true ∧ Req.enterOperation.cls = .maintenance ∧ live.mode = .operational ∧
      Req.enterOperation ≠ .leaveOperation ∧ Req.enterOperation ≠ .restart) := by decide +kernel

theorem witness_OutOfRange :
    Req.setRoute.lengthFits [0x02, 0x01, 0x02, 0x02, 4] = true ∧ modeAnswer live.mode .setRoute = none ∧
      Req.setRoute.inRange [0x02, 0x01, 0x02, 0x02, 4] = false := by decide +kernel

theorem witness_ElementLookup :
    (live.admits .readElement [0x0A, 0x01] = true ∧ wellFormedDesignation (halfAt [0x0A, 0x01] 0) = false) ∧
    (live.admits .readElement [0x09, 0x99] = true ∧ wellFormedDesignation (halfAt [0x09, 0x99] 0) = true ∧
      live.dmap.all (fun x => x.1 != halfAt [0x09, 0x99] 0) = true) := by decide +kernel

theorem witness_RouteLookup :
    (live.admits .setRoute [0x00, 0x00, 0x02, 0x02, 0] = true ∧ live.lookup (halfAt [0x00, 0x00, 0x02, 0x02, 0] 0) = .error .badDesignation) ∧
    (live.admits .setRoute [0x02, 0x01, 0x09, 0x99, 0] = true ∧ live.lookup (halfAt [0x02, 0x01, 0x09, 0x99, 0] 0) = .ok 3 ∧
      live.lookup (halfAt [0x02, 0x01, 0x09, 0x99, 0] 2) = .error .unknownElement) ∧
    (live.admits .setRoute [0x02, 0x01, 0x02, 0x02, 3] = true ∧ live.lookup (halfAt mainKey 0) = .ok 3 ∧
      live.lookup (halfAt mainKey 2) = .ok 4 ∧
      (List.range live.routeCount).all (fun r => !((live.rrow r).start == 3 && (live.rrow r).dest == 4 &&
        (live.rrow r).variant == 3)) = true) := by
  (repeat' apply And.intro) <;>
    first | decide +kernel | exact eq_ok (by decide +kernel) | exact eq_error (by decide +kernel) |
      exact eq_okList (by decide +kernel)

theorem witness_Reads :
    (live.admits .readElement [0x01, 0x01] = true ∧ live.lookup (halfAt [0x01, 0x01] 0) = .ok 0 ∧ live.kind 0 = some .point) ∧
    (live.admits .readRoute mainKey = true ∧ live.payloadRoute mainKey = .ok 0) := by
  (repeat' apply And.intro) <;>
    first | decide +kernel | exact eq_ok (by decide +kernel) | exact eq_error (by decide +kernel) |
      exact eq_okList (by decide +kernel)

theorem witness_IndicationRequests :
    live.admits .readIndications [] = true ∧ live.admits .acknowledgeIndications [0, 0xFF] = true ∧
      live.admits .setReportMask [0x07, 0xFF] = true := by decide +kernel

theorem witness_SetRouteQueues :
    live.admits .setRoute exitKey = true ∧ live.payloadRoute exitKey = .ok 1 ∧ live.routeKind 1 ≠ some .entry ∧
      (live.route 1).state = .free ∧ live.requests.length < 8 := by
  (repeat' apply And.intro) <;>
    first | decide +kernel | exact eq_ok (by decide +kernel) | exact eq_error (by decide +kernel) |
      exact eq_okList (by decide +kernel)

/-- Eight requests wait. -/
def crowd : State := { live with requests := List.replicate 8 ⟨1, .control 0⟩ }

theorem witness_SetRouteRefusals :
    (live.admits .setRoute entryKey = true ∧ live.payloadRoute entryKey = .ok 2 ∧ live.routeKind 2 = some .entry) ∧
    (let s := routed 0 { state := .locked }
     s.admits .setRoute mainKey = true ∧ s.payloadRoute mainKey = .ok 0 ∧ s.routeKind 0 ≠ some .entry ∧
      (s.route 0).state ≠ .free) ∧
    (crowd.admits .setRoute mainKey = true ∧ crowd.payloadRoute mainKey = .ok 0 ∧ crowd.routeKind 0 ≠ some .entry ∧
      (crowd.route 0).state = .free ∧ 8 ≤ crowd.requests.length) := by
  (repeat' apply And.intro) <;>
    first | decide +kernel | exact eq_ok (by decide +kernel) | exact eq_error (by decide +kernel) |
      exact eq_okList (by decide +kernel)

/-- A route of the yard under a Cancel Route or Re-signal. -/
theorem witness_RouteStates :
    ∀ x : RState,
      let s := routed 0 { state := x }
      s.admits .cancelRoute mainKey = true ∧ s.admits .reSignal mainKey = true ∧ s.payloadRoute mainKey = .ok 0 ∧
        (s.route 0).state = x := by
  intro x
  cases x <;> (repeat' apply And.intro) <;>
    first | decide +kernel | exact eq_ok (by decide +kernel) | exact eq_error (by decide +kernel) |
      exact eq_okList (by decide +kernel)

theorem witness_CancelQueuedRequest :
    let s := routed 2 { state := .queued, origin := some (.neighbour .b1 5) }
    s.admits .cancelRoute entryKey = true ∧ s.payloadRoute entryKey = .ok 2 ∧ (s.route 2).state = .queued ∧
      (s.route 2).origin = some (.neighbour .b1 5) := by
  (repeat' apply And.intro) <;>
    first | decide +kernel | exact eq_ok (by decide +kernel) | exact eq_error (by decide +kernel) |
      exact eq_okList (by decide +kernel)

/-- The EXIT route in SETTING, its Offer out under reference 5. -/
def offering : State :=
  { live with
    routes := [(1, { state := .setting, origin := some (.control 7), context := some 0, groups := [.reserved] })]
    contexts := [(0, some { route := 1, awaited := [], reply := true, offerRef := some 5 })]
    ctxTimers := [(0, some { rate := 1, count := 5, bornAt := none, expired := true })]
    trans := [(5, { state := .offerSent, reference := some 5 })] }

theorem witness_CancelSettingRoute :
    offering.admits .cancelRoute exitKey = true ∧ offering.payloadRoute exitKey = .ok 1 ∧
      (offering.route 1).state = .setting ∧ offering.ctxOf 1 = some 0 := by
  (repeat' apply And.intro) <;>
    first | decide +kernel | exact eq_ok (by decide +kernel) | exact eq_error (by decide +kernel) |
      exact eq_okList (by decide +kernel)

/-- The branches of a cancelled route: an ENTRY route, an occupied approach, a proven and an unproven start signal. -/
theorem witness_CancelLockedRoute :
    ((routed 2 { state := .cleared }).admits .cancelRoute entryKey = true ∧
      (routed 2 { state := .cleared }).payloadRoute entryKey = .ok 2 ∧ (routed 2 { state := .cleared }).isEntry 2 = true) ∧
    (let s := { routed 0 { state := .cleared, wasCleared := true } with
       elems := tblPut calm 6 { reported := .occupied, deadline := some 500 } }
     s.admits .cancelRoute mainKey = true ∧ s.payloadRoute mainKey = .ok 0 ∧ s.isEntry 0 = false ∧
       s.approachTest 0 = false ∧ s.requiredMs 0 .approach ≠ 0) ∧
    (let s := routed 0 { state := .locked }
     s.payloadRoute mainKey = .ok 0 ∧ s.holds (s.rrow 0).start .dangerProven = true) ∧
    (let s := { routed 0 { state := .cleared } with
       elems := tblPut calm 3 { reported := .proceedLit, aspect := .caution, deadline := some 500 } }
     s.payloadRoute mainKey = .ok 0 ∧ s.holds (s.rrow 0).start .dangerProven = false) ∧
    (let s := { traded .heldOut (some 5) with routes := [(1, { state := .locked, groups := [.reserved] })] }
     s.admits .cancelRoute exitKey = true ∧ s.payloadRoute exitKey = .ok 1 ∧ (s.route 1).state = .locked ∧
       s.routeKind 1 = some .exit ∧ s.elemLink (s.rrow 1).dest = some .b1 ∧
       s.transOf (s.rrow 1).dest = { state := .heldOut, reference := some 5 } ∧
       s.holds (s.rrow 1).start .dangerProven = true) := by
  (repeat' apply And.intro) <;>
    first | decide +kernel | exact eq_ok (by decide +kernel) | exact eq_error (by decide +kernel) |
      exact eq_okList (by decide +kernel)

/-- Re-signal with clear conditions that hold, and with an occupied path section. -/
theorem witness_ReSignalClearsRoute :
    (let s := routed 0 { state := .locked, groups := [.reserved] }
     s.admits .reSignal mainKey = true ∧ s.payloadRoute mainKey = .ok 0 ∧ (s.route 0).state = .locked ∧
       s.firstFailing 0 = none) ∧
    (let s := { routed 0 { state := .locked, groups := [.reserved] } with
       elems := tblPut calm 1 { reported := .occupied, deadline := some 500 } }
     s.admits .reSignal mainKey = true ∧ s.payloadRoute mainKey = .ok 0 ∧ (s.route 0).state = .locked ∧
       s.firstFailing 0 = some 1) := by
  (repeat' apply And.intro) <;>
    first | decide +kernel | exact eq_ok (by decide +kernel) | exact eq_error (by decide +kernel) |
      exact eq_okList (by decide +kernel)

theorem witness_MovePoint :
    (live.admits .movePoint [0x01, 0x02, 1] = true ∧ live.lookup (halfAt [0x01, 0x02, 1] 0) = .ok 1 ∧
      live.kind 1 ≠ some .point) ∧
    (let p : List Byte := [0x01, 0x01, 2]
     live.admits .movePoint p = true ∧ live.lookup (halfAt p 0) = .ok 0 ∧ sideOfCode (byteAt p 2).toNat = some .right ∧
       live.kind 0 = some .point ∧ (live.elem 0).lockOwner = none ∧ (live.elem 0).claims = 0 ∧
       live.isBlocked 0 = false ∧ live.holds (live.erow 0).sect .vacant = true) ∧
    ((({ live with elems := tblPut calm 0 { lockOwner := some 0 } } : State).elem 0).lockOwner ≠ none) ∧
    ((({ live with elems := tblPut calm 0 { claims := 1 } } : State).elem 0).claims ≠ 0) ∧
    (({ live with blocked := [(0, true)] } : State).isBlocked 0 = true) ∧
    (let s : State := { live with elems := tblPut calm 1 { reported := .occupied, deadline := some 500 } }
     s.kind 0 = some .point ∧ s.isBlocked 0 = false ∧ s.holds (s.erow 0).sect .vacant = false) := by
  (repeat' apply And.intro) <;>
    first | decide +kernel | exact eq_ok (by decide +kernel) | exact eq_error (by decide +kernel) |
      exact eq_okList (by decide +kernel)

theorem witness_BlockAndUnblock :
    live.lookup (halfAt [0x03, 0x01] 0) = .ok 5 ∧ live.admits .blockElement [0x03, 0x01] = true ∧
      live.admits .unblockElement [0x03, 0x01] = true := by
  (repeat' apply And.intro) <;>
    first | decide +kernel | exact eq_ok (by decide +kernel) | exact eq_error (by decide +kernel) |
      exact eq_okList (by decide +kernel)

/-- SECTION_RESET of section 0102. -/
def resetOrder : List Byte := [2, 0x01, 0x02, 0, 0, 0, 0]

/-- A state with an auxiliary command pending. -/
def armed (cmd : AuxCmd) (s : State) : State :=
  { s with auxPending := some ⟨cmd, 7⟩, auxTimer := some { rate := 1, count := 5, bornAt := none, expired := true } }

theorem witness_AuxPrepare :
    (live.admits .auxPrepare resetOrder = true ∧ live.payloadAux resetOrder = .ok (.sectionReset 1) ∧
      live.auxRefusal (.sectionReset 1) = none ∧ live.auxPending = none) ∧
    (let p : List Byte := [2, 0x01, 0x01, 0, 0, 0, 0]
     live.admits .auxPrepare p = true ∧ live.payloadAux p = .ok (.sectionReset 0) ∧
       live.auxRefusal (.sectionReset 0) = some .wrongKind) ∧
    ((armed (.sectionReset 2) live).auxPending = some ⟨.sectionReset 2, 7⟩ ∧
      (armed (.sectionReset 2) live).admits .auxPrepare resetOrder = true) := by
  (repeat' apply And.intro) <;>
    first | decide +kernel | exact eq_ok (by decide +kernel) | exact eq_error (by decide +kernel) |
      exact eq_okList (by decide +kernel)

theorem witness_AuxConfirmRefusals :
    (live.admits .auxConfirm resetOrder = true ∧ live.payloadAux resetOrder = .ok (.sectionReset 1) ∧ live.auxPending = none) ∧
    ((armed (.sectionReset 2) live).admits .auxConfirm resetOrder = true ∧ AuxCmd.sectionReset 2 ≠ .sectionReset 1) ∧
    (let s := armed (.sectionReset 1) { live with elems := tblPut calm 1 { lockOwner := some 0 } }
     s.admits .auxConfirm resetOrder = true ∧ s.payloadAux resetOrder = .ok (.sectionReset 1) ∧
       s.auxRefusal (.sectionReset 1) = some .auxNotApplicable) := by
  (repeat' apply And.intro) <;>
    first | decide +kernel | exact eq_ok (by decide +kernel) | exact eq_error (by decide +kernel) |
      exact eq_okList (by decide +kernel)

/-- Each of the four kinds, its target passing its test. -/
theorem witness_AuxConfirmExecutes :
    ((armed (.sectionReset 1) live).admits .auxConfirm resetOrder = true ∧
      (armed (.sectionReset 1) live).payloadAux resetOrder = .ok (.sectionReset 1) ∧
      (armed (.sectionReset 1) live).auxRefusal (.sectionReset 1) = none) ∧
    (let s := armed (.forcedRouteRelease 0) (routed 0 { state := .locked })
     s.payloadAux (1 :: mainKey ++ [0]) = .ok (.forcedRouteRelease 0) ∧ s.auxRefusal (.forcedRouteRelease 0) = none ∧
       s.requiredMs 0 .forced ≠ 0 ∧ s.admits .auxConfirm (1 :: mainKey ++ [0]) = true) ∧
    (let s := armed (.auxPointMove 0 .right) { live with elems := tblPut calm 1 { reported := .occupied } }
     let p : List Byte := [3, 0x01, 0x01, 0, 0, 0, 2]
     s.payloadAux p = .ok (.auxPointMove 0 .right) ∧ s.auxRefusal (.auxPointMove 0 .right) = none ∧
       s.admits .auxConfirm p = true) ∧
    (let s := armed (.forcedBorderClear 5) { traded .heldOut (some 5) with linkB1 := { state := .lost } }
     let p : List Byte := [4, 0x03, 0x01, 0, 0, 0, 0]
     s.payloadAux p = .ok (.forcedBorderClear 5) ∧ s.auxRefusal (.forcedBorderClear 5) = none ∧
       s.admits .auxConfirm p = true) := by
  (repeat' apply And.intro) <;>
    first | decide +kernel | exact eq_ok (by decide +kernel) | exact eq_error (by decide +kernel) |
      exact eq_okList (by decide +kernel)

/-- The lookups of an auxiliary command that fail. -/
theorem witness_AuxLookup :
    (live.admits .auxPrepare [2, 0x0A, 0x01, 0, 0, 0, 0] = true ∧ live.lookup (halfAt [2, 0x0A, 0x01, 0, 0, 0, 0] 1) = .error .badDesignation) ∧
    (let p : List Byte := [1, 0x09, 0x99, 0x02, 0x02, 0, 0]
     live.admits .auxConfirm p = true ∧ live.lookup (halfAt p 1) = .error .unknownElement) ∧
    (let p : List Byte := [1, 0x02, 0x01, 0x09, 0x99, 0, 0]
     live.admits .auxConfirm p = true ∧ live.lookup (halfAt p 1) = .ok 3 ∧ live.lookup (halfAt p 3) = .error .unknownElement) ∧
    (let p : List Byte := [1, 0x02, 0x01, 0x02, 0x02, 3, 0]
     live.admits .auxPrepare p = true ∧ live.lookup (halfAt p 1) = .ok 3 ∧ live.lookup (halfAt p 3) = .ok 4 ∧
       (List.range live.routeCount).all (fun r => !((live.rrow r).start == 3 && (live.rrow r).dest == 4 &&
         (live.rrow r).variant == 3)) = true) := by
  (repeat' apply And.intro) <;>
    first | decide +kernel | exact eq_ok (by decide +kernel) | exact eq_error (by decide +kernel) |
      exact eq_okList (by decide +kernel)

/-- The routes tied to a border that is cleared by force: an EXIT route that ends at it, and an ENTRY route under its
reference. -/
theorem witness_ForcedBorderClearTied :
    (let s := { traded .heldOut (some 5) with routes := [(1, { state := .locked })] }
     s.routeKind 1 = some .exit ∧ (s.rrow 1).dest = 5 ∧ (s.route 1).state ≠ .setting) ∧
    (let s := { traded .inHeld (some 5) with routes := [(2, { state := .cleared, origin := some (.neighbour .b1 5) })] }
     s.elemLink 5 = some .b1 ∧ (s.transOf 5).reference = some 5 ∧ s.entryUnder .b1 5 5 (fun _ => true) = some 2 ∧
       (s.route 2).state ≠ .setting) := by decide +kernel

theorem witness_AuxWindowExpiry : live.auxExpired = false ∧ (armed (.sectionReset 1) live).auxExpired = true := by
  decide +kernel

/-- A segment with one flank entry. -/
theorem witness_LoadSegment :
    shut.admits .loadTableSegment [4, 0, 1, 0, 7, 1, 0xFF, 0xFF] = true ∧ ∀ r, (shut.route r).state = .free :=
  ⟨by decide +kernel, fun _ => rfl⟩

/-- The bytes of a CRC-32 read back as it. -/
theorem word32_crcBytes (c : Crc) :
    word32 (byteAt (crcBytes c) 0) (byteAt (crcBytes c) 1) (byteAt (crcBytes c) 2) (byteAt (crcBytes c) 3) = c := by
  apply BitVec.eq_of_getLsbD_eq
  intro i hi
  simp only [word32, byteAt, crcBytes, List.getD_cons_zero, List.getD_cons_succ, BitVec.getLsbD_append,
    BitVec.getLsbD_extractLsb']
  have e : ∀ n k, n + k = i → k < 8 → (decide (k < 8) && BitVec.getLsbD c (n + k)) = BitVec.getLsbD c i := by
    intro n k h hk
    simp [h, hk]
  repeat' split
  all_goals exact e _ _ (by omega) (by omega)

/-- Verify Tables with the CRC-32 of the tables, over good tables, over bad tables, and with another CRC-32. -/
theorem witness_VerifyTables :
    (∃ p, shut.admits .verifyTables p = true ∧ (∀ r, (shut.route r).state = .free) ∧ (∀ c, c < 4 → shut.ctx c = none) ∧
      tableCrc shut.store = word32 (byteAt p 0) (byteAt p 1) (byteAt p 2) (byteAt p 3) ∧ checkTables shut.store = none) ∧
    (∃ p, State.reset.admits .verifyTables p = true ∧ (∀ r, (State.reset.route r).state = .free) ∧
      tableCrc State.reset.store = word32 (byteAt p 0) (byteAt p 1) (byteAt p 2) (byteAt p 3) ∧
      ∃ table pos, checkTables State.reset.store = some (table, pos)) ∧
    (∃ p, shut.admits .verifyTables p = true ∧ (∀ r, (shut.route r).state = .free) ∧
      tableCrc shut.store ≠ word32 (byteAt p 0) (byteAt p 1) (byteAt p 2) (byteAt p 3)) := by
  refine ⟨⟨crcBytes (tableCrc yard), rfl, fun _ => rfl, fun _ _ => rfl, (word32_crcBytes _).symm, by decide +kernel⟩,
    ⟨crcBytes (tableCrc []), rfl, fun _ => rfl, (word32_crcBytes _).symm, 5, 0, by decide +kernel⟩,
    ⟨crcBytes (tableCrc yard + 1), rfl, fun _ => rfl, ?_⟩⟩
  rw [word32_crcBytes]
  show tableCrc yard ≠ tableCrc yard + 1
  generalize tableCrc yard = c
  simp

theorem witness_SortedRoutes : checkTables yard = none ∧ 1 + 1 < siteRoutes yard := by decide +kernel

theorem witness_EnterOperation :
    (shut.admits .enterOperation [] = true ∧ shut.tablesValid = true) ∧
    (State.reset.admits .enterOperation [] = true ∧ State.reset.tablesValid = false) := by decide +kernel

theorem witness_LeaveOperation :
    (live.admits .leaveOperation [] = true ∧ live.idleRoutes = true) ∧
    ((routed 0 { state := .queued }).admits .leaveOperation [] = true ∧ ((routed 0 { state := .queued }).route 0).state ≠ .free) ∧
    (offering.ctx 0 ≠ none) ∧ ((5 : Nat) < (traded .heldOut none).elemCount ∧ ((traded .heldOut none).transOf 5).state ≠ .idle) := by
  decide +kernel

theorem witness_UnknownKind :
    parseFrame [1, 2, 3] = none ∧
    (∃ f, parseFrame [0x01, 0x7F, 0x00, 0x09, 0x00, 0x00, 0xAD, 0x5E] = some f ∧ reqOfCodes f.cls f.kind = none) := by
  refine ⟨by decide +kernel, ⟨0x01, 0x7F, 9, []⟩, by decide +kernel, by decide +kernel⟩

theorem witness_StatusTelegramDiscarded :
    statusPayload [0x10] = none ∧ statusPayload (fieldBytes 0x12 0x7ACA) = some (fieldPayload 0x12) ∧
      ({ live with tablesValid := false } : State).tablesValid = false ∧
      ({ live with store := [] } : State).fecConfigured 1 = false ∧
      ({ live with life := [(1, some 7)] } : State).lifeOf (byteAt (fieldPayload 0x12) 0).toNat =
        some (byteAt (fieldPayload 0x12) 1) := by decide +kernel

/-- An accepted telegram, and the three rules of the throw watch. -/
theorem witness_StatusTelegram :
    (statusPayload (fieldBytes 0x12 0x7ACA) = some (fieldPayload 0x12) ∧ live.tablesValid = true ∧
      live.fecConfigured (byteAt (fieldPayload 0x12) 0).toNat = true ∧
      live.lifeOf (byteAt (fieldPayload 0x12) 0).toNat ≠ some (byteAt (fieldPayload 0x12) 1) ∧
      live.slotElem (byteAt (fieldPayload 0x12) 0).toNat 0 = some 0 ∧ live.kind 0 = some .point) ∧
    ((live.elem 0).pointCmd = Side.left.cmd ∧ reportedOfCode .point 0x11 = Side.left.reported ∧
      statusPayload (fieldBytes 0x11 0xB2BF) = some (fieldPayload 0x11)) ∧
    ((live.elem 0).watch = none ∧ reportedOfCode .point 0x12 = Side.left.other.reported ∧
      reportedOfCode .point 0x13 = .moving ∧ statusPayload (fieldBytes 0x13 0x3D19) = some (fieldPayload 0x13)) ∧
    (({ live with elems := tblPut calm 0 { fault := true } } : State).elem 0).pointCmd = .hold := by decide +kernel

/-- A Status Telegram of FEC 1 with life count 7, its four codes and the throw time of slot 0. -/
def codesPayload (point first second signal throw : Byte) : List Byte :=
  [0x01, 0x07, point, first, second, signal, throw, 0, 0, 0]
/-- Its bytes. -/
def codesBytes (point first second signal throw : Byte) : List Byte :=
  (Frame.mk 0x10 0x01 0 (codesPayload point first second signal throw)).bytes

/-- An accepted telegram, as an event. -/
theorem statusTelegram_event (s : State) (bytes p : List Byte) (h : statusPayload bytes = some p) :
    exec (.statusTelegram bytes) s = .next (((Ev.start s).validTelegram .f).statusJudged p).settle := by
  show Host.Outcome.next (takeStatusTelegram bytes s) = _
  unfold takeStatusTelegram
  rw [h]

/-- A section under a Reset Order, heard VACANT and heard OCCUPIED. -/
theorem witness_StatusTelegramRestores :
    let s : State := { live with events := 3, elems := tblPut calm 1 { reported := .vacant, restore := true, restoreSet := some 2, deadline := some 500 } }
    statusPayload (codesBytes 0x11 0x21 0x21 0x31 9) = some (codesPayload 0x11 0x21 0x21 0x31 9) ∧
    statusPayload (codesBytes 0x11 0x22 0x21 0x31 9) = some (codesPayload 0x11 0x22 0x21 0x31 9) ∧
    s.tablesValid = true ∧ s.fecConfigured 1 = true ∧ s.lifeOf 1 ≠ some 7 ∧ s.slotElem 1 1 = some 1 ∧
    s.kind 1 = some .sect ∧ (s.elem 1).restore = true ∧ (s.elem 1).restoreSet = some 2 ∧ 2 ≤ s.events := by
  decide +kernel

/-- A throw of 1.8 s against a limit of 2.0 s ends, and a throw of 0.9 s; a report of 1.8 s with the watch idle. -/
theorem witness_StatusTelegramComparesThrow :
    let s : State := { live with elems := tblPut calm 0 { reported := .moving, pointCmd := .right, watch := some 600, deadline := some 500 } }
    statusPayload (codesBytes 0x12 0x21 0x21 0x31 18) = some (codesPayload 0x12 0x21 0x21 0x31 18) ∧
    s.slotElem 1 0 = some 0 ∧ s.kind 0 = some .point ∧ (s.elem 0).watch ≠ none ∧
    (s.elem 0).pointCmd = Side.right.cmd ∧ reportedOfCode .point 0x12 = Side.right.reported ∧
    (s.erow 0).throwLimit * 8 < 18 * 10 ∧ ¬ (s.erow 0).throwLimit * 8 < 9 * 10 ∧
    (live.elem 0).watch = none ∧
    [1, 2, 3].all (fun slot => s.slotElem 1 slot != none && (s.slotElem 1 slot).bind s.kind != some .point) = true := by
  decide +kernel

/-- The first section of a route becomes OCCUPIED, in each of the four states in which it counts. -/
theorem witness_TrainEntersRoute :
    ∀ w ∈ [({ state := .cleared, wasCleared := true, clearWanted := true, aspect := .caution } : RouteRec), { state := .locked },
           { state := .cancelling, purpose := .approach }, { state := .cancelling, purpose := .forced }],
      let s := routed 0 { w with groups := [.reserved] }
      ∃ t, exec (.statusTelegram (codesBytes 0x11 0x22 0x21 0x31 9)) s = .next t ∧
        s.firstSection 0 = some 1 ∧ s.holds 1 .occupied = false ∧ t.holds 1 .occupied = true ∧
        (∀ c x, s.ctx c = some x → x.route ≠ 0) ∧ (∀ g ∈ (s.route 0).groups, g = .reserved) ∧ (s.route 0).groups ≠ [] ∧
        (∃ x ∈ s.pathSections 0, x.target = 1 ∧ x.group = 1) ∧ (s.route 0).state = w.state ∧
        (∀ v ∈ s.waitList, v.route = 0 → v.purpose = (s.route 0).purpose) := by
  intro w hw
  refine ⟨_, statusTelegram_event _ _ (codesPayload 0x11 0x22 0x21 0x31 9) (by decide +kernel), ?_⟩
  rw [Ev.settle_holds]
  refine ⟨?_, ?_, ?_, fun c x h => (nomatch (show (none : Option Ctx) = some x from h)), ?_, ?_,
    ?_, ?_, fun v h => absurd (h : v ∈ []) List.not_mem_nil⟩ <;>
    · revert w
      decide +kernel

/-- The yard with a MAIN route of two groups, its second section 0103. -/
def twoGroups (w : RouteRec) : State :=
  { routed 0 w with store := Memory.write (Memory.write yard 4616 3) 14614 2 }

/-- The second group of a route becomes OCCUPIED, behind a train and with the first group still RESERVED. -/
theorem witness_TrainMarksGroup :
    ∀ w ∈ [({ state := .inUse, groups := [.seen, .reserved] } : RouteRec), { state := .locked, groups := [.reserved, .reserved] }],
      let s := twoGroups w
      ∃ t, exec (.statusTelegram (codesBytes 0x11 0x21 0x22 0x31 9)) s = .next t ∧
        (∃ x ∈ s.pathSections 0, x.target = 2 ∧ x.group = 2) ∧ s.holds 2 .occupied = false ∧ t.holds 2 .occupied = true ∧
        s.firstSection 0 ≠ some 2 ∧ (∀ c y, s.ctx c = some y → y.route ≠ 0) ∧ 2 ≤ (s.route 0).groups.length ∧
        (s.route 0).groupState 2 = .reserved ∧ (s.route 0).groupState 1 = w.groupState 1 ∧
        (∀ y ∈ s.pathSections 0, s.holds y.target .occupied = false → t.holds y.target .occupied = true → y.target = 2) := by
  intro w hw
  refine ⟨_, statusTelegram_event _ _ (codesPayload 0x11 0x21 0x22 0x31 9) (by decide +kernel), ?_⟩
  simp only [Ev.settle_holds]
  refine ⟨?_, ?_, ?_, ?_,
    fun c x h => (nomatch (show (none : Option Ctx) = some x from h)), ?_, ?_, ?_, ?_⟩ <;>
    · revert w
      decide +kernel

/-- A point of a CLEARED route's path leaves its position, and no section becomes OCCUPIED. -/
theorem witness_RouteReverts :
    let s := routed 0 { state := .cleared, wasCleared := true, clearWanted := true, groups := [.reserved], aspect := .caution }
    ∃ t, exec (.statusTelegram (codesBytes 0x12 0x21 0x21 0x31 9)) s = .next t ∧
      (∃ x ∈ pathOf s.store (s.rrow 0) ++ overlapOf s.store (s.rrow 0),
        s.entryClear x = true ∧ t.entryClear x = false) ∧ (s.route 0).state = .cleared ∧
      s.firstSection 0 = some 1 ∧ t.holds 1 .occupied = false ∧ (∀ c y, s.ctx c = some y → y.route ≠ 0) ∧
      (∀ g ∈ (s.route 0).groups, g = .reserved) := by
  refine ⟨_, statusTelegram_event _ _ (codesPayload 0x12 0x21 0x21 0x31 9) (by decide +kernel), ?_⟩
  simp only [Ev.settle_holds, Ev.settle_entryClear]
  exact ⟨by decide +kernel, by decide +kernel, by decide +kernel, by decide +kernel,
    fun c x h => (nomatch (show (none : Option Ctx) = some x from h)), by decide +kernel⟩

theorem witness_ElementDeadlines :
    (live.passes (live.elem 0).deadline = false ∧ live.passes (live.elem 0).watch = false) ∧
    ((struck 500 live).passes ((struck 500 live).elem 0).deadline = true) ∧
    (let s := struck 500 { live with
       elems := tblPut calm 0 { pointCmd := .right, watch := some 500 }
       contexts := [(2, some { route := 0, awaited := [⟨0, .right⟩], reply := false, offerRef := none })] }
     s.passes (s.elem 0).watch = true ∧ s.ctxAwaits 0 2 = true) := by decide +kernel

theorem witness_InvalidBorderTelegram :
    (Instr.invalidBorderTelegram .b1 [1, 2, 3]).wf = true ∧ borderStatusFits [] = false ∧
      borderTransactionFits [0] = false := by decide +kernel

theorem witness_BorderLinkComesUp :
    fitsLink (.offer .b1 offered) .b1 = true ∧
      ({ live with linkB1 := { state := .lost, count := 2 } } : State).comesUp Link.b1.port = true := by decide +kernel

theorem witness_BorderStatusApplies :
    borderStatusFits [1, 0, 0x22, 3] = true ∧
    (({ live with linkB1 := {} } : State).link Link.b1.port).state ≠ .up ∧
    ({ live with linkB1 := {} } : State).comesUp Link.b1.port = false ∧ (live.link Link.b1.port).state = .up ∧
    live.borderElem .b1 0 = some 5 ∧
    ({ live with linkB1 := { state := .lost, count := 2 } } : State).comesUp Link.b1.port = true ∧
    (∃ x y, statusEntries [2, 0, 0x22, 3, 0, 0x21, 1] = [x, y] ∧ x.point = y.point) ∧
    (∃ x, statusEntries [1, 0, 0x22, 3] = [] ++ x :: [] ∧ x.point = 0) := by
  refine ⟨by decide +kernel, by decide +kernel, by decide +kernel, by decide +kernel, by decide +kernel, by decide +kernel,
    ⟨_, _, rfl, by decide +kernel⟩, ⟨_, rfl, by decide +kernel⟩⟩

theorem witness_OfferIsDeclined :
    (borderTransactionFits offered = true ∧ shut.comesUp Link.b1.port = false ∧ shut.mode ≠ .operational) ∧
    (live.comesUp Link.b1.port = false ∧ live.mode = .operational ∧ live.borderElem .b2 (byteAt offered 0).toNat = none) ∧
    (live.borderElem .b1 (byteAt offered 0).toNat = some 5 ∧ ((traded .heldOut none).transOf 5).state = .heldOut) ∧
    (((traded .inHeld (some 4)).transOf 5).state = .inHeld ∧ ((traded .inHeld (some 4)).transOf 5).reference ≠ some 5) ∧
    (((traded .offerSent (some 4)).transOf 5).state = .offerSent ∧ siteSeniority yard .b1 = 1) ∧
    ((live.transOf 5).state = .idle ∧ live.offerRoute 5 (borderTxOf .offer [0, 5, 0, 0x03, 0x01, 0]) = none) ∧
    (let s := routed 2 { state := .queued, origin := some (.neighbour .b1 4) }
     s.offerRoute 5 (borderTxOf .offer offered) = some 2 ∧ s.entryRequests 5 = [2] ∧
       (s.route 2).origin ≠ some (.neighbour .b1 5)) ∧
    (let s := routed 2 { state := .inUse }
     s.entryRequests 5 = [] ∧ (s.route 2).state ≠ .free ∧ s.offerRoute 5 (borderTxOf .offer offered) = some 2) ∧
    (crowd.entryRequests 5 = [] ∧ (crowd.route 2).state = .free ∧ 8 ≤ crowd.requests.length ∧
      crowd.offerRoute 5 (borderTxOf .offer offered) = some 2) := by decide +kernel

theorem witness_OfferQueuesEntryRoute :
    borderTransactionFits offered = true ∧ live.comesUp Link.b1.port = false ∧ live.mode = .operational ∧
      live.borderElem .b1 (byteAt offered 0).toNat = some 5 ∧ (live.transOf 5).state = .idle ∧
      live.offerRoute 5 (borderTxOf .offer offered) = some 2 ∧ live.entryRequests 5 = [] ∧
      (live.route 2).state = .free ∧ live.requests.length < 8 := by decide +kernel

/-- The yard as the JUNIOR side of its border. -/
theorem witness_CrossingJunior :
    let s : State := { offering with store := Memory.write yard (siteBase + 8) 2 }
    borderTransactionFits offered = true ∧ s.comesUp Link.b1.port = false ∧ s.mode = .operational ∧
      s.borderElem .b1 (byteAt offered 0).toNat = some 5 ∧ (s.transOf 5).state = .offerSent ∧
      siteSeniority s.store .b1 ≠ 1 ∧ s.ctxAwaiting 5 = some 0 ∧
      s.ctx 0 = some { route := 1, awaited := [], reply := true, offerRef := some 5 } := by decide +kernel

theorem witness_BorderTelegramIgnored :
    (BorderKind.accept ≠ .offer ∧ live.borderElem .b2 (byteAt offered 0).toNat = none ∧
      live.comesUp Link.b2.port = false) ∧
    (let s := routed 2 { state := .queued, origin := some (.neighbour .b1 5) }
     s.mode = .operational ∧ (s.transOf 5).state = .idle ∧ s.offerRoute 5 (borderTxOf .offer offered) = some 2 ∧
       2 ∈ s.entryRequests 5 ∧ (s.route 2).origin = some (.neighbour .b1 (byteAt offered 1))) ∧
    (let s := traded .heldOut (some 5)
     (s.transOf 5).state = .heldOut ∧ (s.transOf 5).reference = some (byteAt offered 1)) ∧
    ((live.transOf 5).state ≠ .inHeld) ∧
    (let s := traded .inHeld (some 4)
     (s.transOf 5).state = .inHeld ∧ (s.transOf 5).reference ≠ some (byteAt offered 1)) ∧
    ((live.transOf 5).state = .idle ∧ ∀ r, (live.route r).state.waiting = true →
      (live.route r).origin ≠ some (.neighbour .b1 5)) := by
  refine ⟨by decide +kernel, by decide +kernel, by decide +kernel, by decide +kernel, by decide +kernel, by decide +kernel, ?_⟩
  intro r h
  exact absurd h (by show ¬ (RState.waiting .free = true); decide)

theorem witness_AcceptIsTaken :
    (borderTransactionFits offered = true ∧ offering.comesUp Link.b1.port = false ∧
      offering.borderElem .b1 (byteAt offered 0).toNat = some 5 ∧ (offering.transOf 5).state = .offerSent ∧
      (offering.transOf 5).reference = some (byteAt offered 1) ∧ offering.ctxAwaiting 5 = some 0 ∧
      offering.ctx 0 = some { route := 1, awaited := [], reply := true, offerRef := some 5 }) ∧
    (let s : State := { offering with
       contexts := [(0, some { route := 1, awaited := [⟨0, .right⟩], reply := true, offerRef := some 5 })] }
     s.ctxAwaiting 5 = some 0 ∧
       s.ctx 0 = some { route := 1, awaited := [⟨0, .right⟩], reply := true, offerRef := some 5 }) ∧
    ((traded .offerSent (some 5)).ctxAwaiting 5 = none) ∧
    ((live.transOf 5).state ≠ .offerSent ∧ (live.transOf 5).state ≠ .heldOut) ∧
    ((traded .inHeld (some 5)).mode = .operational ∧ ((traded .inHeld (some 5)).transOf 5).state = .inHeld ∧
      ((traded .inHeld (some 5)).transOf 5).reference = some (byteAt offered 1)) ∧
    (((traded .heldOut (some 5)).transOf 5).state = .heldOut ∧
      ((traded .heldOut (some 5)).transOf 5).reference = some (byteAt offered 1)) := by decide +kernel

theorem witness_DeclineEndsOffer :
    (borderTransactionFits offered = true ∧ offering.comesUp Link.b1.port = false ∧
      offering.borderElem .b1 (byteAt offered 0).toNat = some 5 ∧ (offering.transOf 5).state = .offerSent ∧
      (offering.transOf 5).reference = some (byteAt offered 1) ∧ offering.ctxAwaiting 5 = some 0 ∧
      (offering.route 1).origin = some (.control 7)) ∧
    ¬ ((live.transOf 5).state = .offerSent ∧ (live.transOf 5).reference = some (byteAt offered 1)) := by decide +kernel

/-- An ENTRY route under reference 5, its reservation held. -/
def held (groups : List GroupState) : State :=
  { traded .inHeld (some 5) with routes := [(2, { state := .locked, origin := some (.neighbour .b1 5), groups := groups })] }

theorem witness_WithdrawAndHandback :
    (borderTransactionFits offered = true ∧ (held [.reserved]).comesUp Link.b1.port = false ∧
      (held [.reserved]).borderElem .b1 (byteAt offered 0).toNat = some 5 ∧ ((held [.reserved]).transOf 5).state = .inHeld ∧
      ((held [.reserved]).transOf 5).reference = some (byteAt offered 1) ∧
      (held [.reserved]).entryUnder .b1 5 (byteAt offered 1) (fun _ => true) = some 2 ∧
      ((held [.reserved]).route 2).groups.any GroupState.entered = false) ∧
    ((held [.seen]).entryUnder .b1 5 (byteAt offered 1) (fun _ => true) = some 2 ∧
      ((held [.seen]).route 2).groups.any GroupState.entered = true) ∧
    ((traded .inHeld (some 5)).entryUnder .b1 5 (byteAt offered 1) (fun _ => true) = none) ∧
    (let s := routed 2 { state := .queued, origin := some (.neighbour .b1 5) }
     (s.transOf 5).state = .idle ∧ (s.route 2).state = .queued ∧
       s.entryUnder .b1 5 (byteAt offered 1)
         (fun x => x == .queued || ((s.transOf 5).state == .idle && x == .setting)) = some 2) := by decide +kernel

/-- The ENTRY route in SETTING for a neighbour's reference 5, its context with points still to come. -/
def entering : State :=
  { live with
    routes := [(2, { state := .setting, origin := some (.neighbour .b1 5), context := some 1, groups := [.reserved] })]
    contexts := [(1, some { route := 2, awaited := [⟨0, .right⟩], reply := false, offerRef := none })]
    elems := tblPut calm 5 { nbr := .vacant, heard := true, lockOwner := some 2 } }

theorem witness_WithdrawEndsSetting :
    borderTransactionFits offered = true ∧ entering.comesUp Link.b1.port = false ∧
      entering.borderElem .b1 (byteAt offered 0).toNat = some 5 ∧ (entering.transOf 5).state = .idle ∧
      entering.entryUnder .b1 5 (byteAt offered 1) (fun x => x == .queued || x == .setting) = some 2 ∧
      (entering.route 2).state = .setting ∧ entering.ctxOf 2 = some 1 ∧
      entering.ctx 1 = some { route := 2, awaited := [⟨0, .right⟩], reply := false, offerRef := none } := by decide +kernel

/-- An ENTRY route of a neighbour and a route of the control system whose contexts await nothing. -/
theorem witness_CompletedEntry :
    (let ev := Ev.start { entering with contexts := [(1, some { route := 2, awaited := [], reply := false, offerRef := none })] }
     ev.s.ctx 1 = some { route := 2, awaited := [], reply := false, offerRef := none } ∧ ev.s.isEntry 2 = true ∧
       (ev.s.route 2).origin = some (.neighbour .b1 5)) ∧
    (let ev := Ev.start { routed 0 { state := .setting } with
       contexts := [(1, some { route := 0, awaited := [], reply := false, offerRef := none })] }
     ev.s.ctx 1 = some { route := 0, awaited := [], reply := false, offerRef := none } ∧ ev.s.isEntry 0 = false) := by
  decide +kernel

/-- The yard with one request waiting. -/
def asked (r : Nat) (s : State) : State :=
  { s with requests := [⟨r, .control 7⟩], routes := [(r, { state := .queued, origin := some (.control 7) })] }

theorem witness_ReservationRefuses :
    (shut.mode ≠ .operational ∧ live.requests = []) ∧
    (let s := asked 0 { live with elems := tblPut calm 1 { reported := .occupied, deadline := some 500 } }
     s.mode = .operational ∧ s.requests = [⟨0, .control 7⟩] ∧ s.ctx 0 = none ∧ (s.route 0).state = .queued ∧
       s.reservationOutcome 0 = .error (.conditionFailed, 1)) := by
  (repeat' apply And.intro) <;>
    first | decide +kernel | exact eq_ok (by decide +kernel) | exact eq_error (by decide +kernel) |
      exact eq_okList (by decide +kernel)

/-- A route with nothing to await, one with a point to move, and an EXIT route. -/
theorem witness_ReservationLocks :
    (let s := asked 0 live
     s.mode = .operational ∧ s.requests = [⟨0, .control 7⟩] ∧ s.freeCtxNumber = some 0 ∧
       s.reservationOutcome 0 = .ok [⟨7, .left, .group 1⟩] ∧ s.routeKind 0 ≠ some .exit ∧
       (s.routePoints 0 [⟨7, .left, .group 1⟩]).filter (fun a => !s.atSide a.elem a.side) = []) ∧
    (let s := asked 0 { live with elems := tblPut calm 0 { reported := .right, pointCmd := .right, deadline := some 500 } }
     s.reservationOutcome 0 = .ok [⟨7, .left, .group 1⟩] ∧
       (s.routePoints 0 [⟨7, .left, .group 1⟩]).filter (fun a => !s.atSide a.elem a.side) = [⟨0, .left⟩]) ∧
    (let s := asked 1 live
     s.reservationOutcome 1 = .ok [] ∧ s.routeKind 1 = some .exit ∧ s.elemLink (s.rrow 1).dest = some .b1) ∧
    (let s : State := { live with
       requests := [⟨2, .neighbour .b1 5⟩], routes := [(2, { state := .queued, origin := some (.neighbour .b1 5) })] }
     s.mode = .operational ∧ s.freeCtxNumber = some 0 ∧ s.reservationOutcome 2 = .ok [] ∧ s.isEntry 2 = true ∧
       (s.route 2).origin = some (.neighbour .b1 5) ∧
       (s.routePoints 2 []).filter (fun a => !s.atSide a.elem a.side) = []) := by
  (repeat' apply And.intro) <;>
    first | decide +kernel | exact eq_ok (by decide +kernel) | exact eq_error (by decide +kernel) |
      exact eq_okList (by decide +kernel)

theorem witness_LinkTimerExpiry :
    (∀ p ∈ [Port.c, .f, .b1, .b2], live.passes (live.link p).timer = false) ∧
    (∀ p ∈ [Port.c, .f, .b1], (struck 900 live).passes ((struck 900 live).link p).timer = true ∧
      ((struck 900 live).link p).state = .up) ∧
    (let s := struck 900 { live with linkB2 := { count := 1, timer := some 900 } }
     s.passes (s.link .b2).timer = true ∧ (s.link .b2).state ≠ .up) ∧
    ((struck 900 live).auxPending = none ∧ (armed (.sectionReset 1) live).auxPending ≠ none) := by decide +kernel

/-- The one context of a state with one. -/
theorem ctx_single {s : State} {k c : Nat} {x y : Ctx} (h : s.contexts = [(k, some y)]) (hc : s.ctx c = some x) :
    x = y := by
  unfold State.ctx at hc
  rw [h] at hc
  simp only [tblGet] at hc
  split at hc
  · exact (Option.some.inj hc).symm
  · exact absurd hc (by simp)

/-- An EXIT route's context holds the Offer, and an ENTRY request waits. -/
theorem witness_BorderLinkLoss :
    let s := struck 900 { offering with
      routes := tblPut offering.routes 2 { state := .queued, origin := some (.neighbour .b1 4) } }
    s.passes (s.link Link.b1.port).timer = true ∧ (s.link Link.b1.port).state = .up ∧ 5 ∈ s.linkElems .b1 ∧
      (s.transOf 5).state = .offerSent ∧ s.ctxAwaiting 5 = some 0 ∧ s.routeKind 2 = some .entry ∧
      s.onLink .b1 (s.rrow 2).start = true ∧ (s.route 2).state = .queued ∧
      (∀ c x, s.ctx c = some x → x.offerRef ≠ none → s.routeKind x.route = some .exit) := by
  refine ⟨by decide +kernel, by decide +kernel, by decide +kernel, by decide +kernel, by decide +kernel, by decide +kernel,
    by decide +kernel, by decide +kernel, fun c x h _ => ?_⟩
  rw [ctx_single (s := struck 900 { offering with
    routes := tblPut offering.routes 2 { state := .queued, origin := some (.neighbour .b1 4) } }) rfl h]
  decide +kernel

theorem witness_BorderLinkLossSetting :
    let s := struck 900 entering
    s.passes (s.link Link.b1.port).timer = true ∧ (s.link Link.b1.port).state = .up ∧ s.routeKind 2 = some .entry ∧
      s.onLink .b1 (s.rrow 2).start = true ∧ (s.route 2).state = .setting ∧ s.ctxOf 2 = some 1 ∧
      (∀ c x, s.ctx c = some x → x.offerRef ≠ none → s.routeKind x.route = some .exit) := by
  refine ⟨by decide +kernel, by decide +kernel, by decide +kernel, by decide +kernel, by decide +kernel, by decide +kernel,
    fun c x h hr => absurd ?_ hr⟩
  rw [ctx_single (s := struck 900 entering) rfl h]

/-- A release timer that has expired for a CANCELLING route, with and without a wait list. -/
def waited (expired : Bool) (waiting : List Waiting) : State :=
  { routed 0 { state := .cancelling, purpose := .approach, timer := some 3 } with
    timers := [(3, some { owner := 0, purpose := .approach, timer := { rate := 5, count := 0, bornAt := none, expired := expired } })]
    waitList := waiting }

theorem witness_ReleaseTimerExpiry :
    ((waited false []).timerOf 3 ≠ none ∧ live.timerOf 3 = none) ∧
    (∃ h, (waited true []).timerOf 3 = some h ∧ h.timer.expired = true ∧ h.purpose ≠ .none ∧
      (waited true []).waitList.filter (fun w => w.route != h.owner) = []) ∧
    (∃ h, (waited true [⟨1, .approach⟩]).timerOf 3 = some h ∧ h.timer.expired = true ∧ h.purpose ≠ .none ∧
      (waited true [⟨1, .approach⟩]).waitList.filter (fun w => w.route != h.owner) = [⟨1, .approach⟩]) := by
  refine ⟨by decide +kernel, ⟨_, rfl, rfl, by decide +kernel, rfl⟩, ⟨_, rfl, rfl, by decide +kernel, rfl⟩⟩

/-- An EXIT route in HELD_OUT whose forced timer has expired, its train seen in the route and not. -/
theorem witness_ReleaseTimerExpiryBorder :
    ∀ g ∈ [GroupState.seen, .reserved],
      let s : State := { traded .heldOut (some 5) with
        routes := [(1, { state := .cancelling, purpose := .forced, timer := some 3, groups := [g] })]
        timers := [(3, some { owner := 1, purpose := .forced, timer := { rate := 5, count := 0, bornAt := none, expired := true } })] }
      (∃ h, s.timerOf 3 = some h ∧ h.timer.expired = true ∧ h.purpose ≠ .none ∧ h.owner = 1) ∧
        s.routeKind 1 = some .exit ∧ s.elemLink (s.rrow 1).dest = some .b1 ∧
        s.transOf (s.rrow 1).dest = { state := .heldOut, reference := some 5 } ∧ (s.route 1).groups = [g] := by
  intro g hg
  refine ⟨⟨_, rfl, rfl, by simp, rfl⟩, ?_, ?_, ?_, rfl⟩ <;>
    · revert g
      decide +kernel

theorem witness_ContextTimerExpiry :
    live.ctxTimer 0 = none ∧
    (∃ t x, offering.ctxTimer 0 = some t ∧ t.expired = true ∧ offering.ctx 0 = some x ∧ x.offerRef = some 5 ∧
      offering.elemLink (offering.rrow x.route).dest = some .b1 ∧
      (offering.transOf (offering.rrow x.route).dest).state = .offerSent) := by
  refine ⟨by decide +kernel, _, _, rfl, rfl, rfl, rfl, by decide +kernel, by decide +kernel⟩

theorem witness_BackgroundCheck :
    (live.atTick = false ∧ ∃ s : State, tableCrc s.store = s.storedCrc) ∧
    (∀ m : Mode, ∃ s : State, s.atTick = true ∧ s.tick % 6000 = 0 ∧ tableCrc s.store ≠ s.storedCrc ∧ s.mode = m) := by
  refine ⟨⟨rfl, { live with storedCrc := tableCrc yard }, rfl⟩, fun m =>
    ⟨{ struck 12000 live with storedCrc := tableCrc yard + 1, mode := m }, rfl, (by decide : 12000 % 6000 = 0), ?_, rfl⟩⟩
  show tableCrc yard ≠ tableCrc yard + 1
  generalize tableCrc yard = c
  simp

theorem witness_ReportSend :
    ({ live with linkC := {} } : State).linkC.state ≠ .up ∧ live.linkC.state = .up ∧ live.queue = [] ∧
      ({ live with queue := State.reset.queue } : State).queue = .mode none .maintenance .reset :: [] := by decide +kernel

theorem witness_RateTick :
    ¬ (live.atTick = true ∧ 2 < 8 ∧ live.tick % 2 ^ 2 = 0) ∧
      ((struck 100 live).atTick = true ∧ 2 < 8 ∧ (struck 100 live).tick % 2 ^ 2 = 0) := by decide +kernel

/-- Required times at the border of two rates, and one beyond every rate. -/
theorem witness_TimerSetting :
    let n (tms k : Nat) := (tms + 10 * 2 ^ k - 1) / (10 * 2 ^ k) + 1
    n 2550 0 ≤ 256 ∧ (256 < n 2551 0 ∧ n 2551 1 ≤ 256) ∧ ∀ k, k < 8 → 256 < n 400000 k := by decide +kernel

theorem witness_TimerExpires :
    ({ rate := 0, preload := 254, clamped := false } : Setting).preload < 256 ∧ ∀ t ∈ [101, 102], t ≠ live.tick := by
  decide +kernel

/-- A report disabled by the mask, a queued Element Report of the same element, a place, and none. -/
theorem witness_ReportQueue :
    let er : ElementReport := live.elementReport 0 .point
    maskAllows 0x6FF (.element er) = false ∧ maskAllows live.mask (.element er) = true ∧
      (∃ q ∈ [Report.element er], q.isElement er.elem = true) ∧
      (∀ q ∈ State.reset.queue, q.isElement er.elem = false) ∧ State.reset.queue.length < 32 ∧
      ¬ (List.replicate 32 (Report.mode none .maintenance .reset)).length < 32 := by decide +kernel

/-- An element of each kind, and an index that holds none. -/
theorem witness_ConditionsAreDerived :
    live.kind 0 = some .point ∧ live.kind 1 = some .sect ∧ live.kind 3 = some .signal ∧ live.kind 5 = some .border ∧
      live.kind 8 = none := by decide +kernel

theorem witness_GroupRelease :
    let s := routed 0 { state := .inUse, groups := [.seen], flank := [⟨7, .left, .group 1⟩] }
    1 ≤ 1 ∧ 1 ≤ (s.route 0).groups.length := by decide +kernel

/-- A MAIN route of two groups in IN_USE, its sections 0102 and 0103 and its berth as given, its overlap release time. -/
def passing (groups : List GroupState) (first second berth : Reported) (ovTime : Byte) : State :=
  { routed 0 { state := .inUse, groups := groups } with
    store := Memory.write (Memory.write (Memory.write (Memory.write yard 4616 3) 14614 2) 4626 2) 4631 ovTime
    elems := tblPut (tblPut (tblPut calm 1 { reported := first, deadline := some 500 }) 2
      { reported := second, deadline := some 500 }) 6 { reported := berth, deadline := some 500 } }

/-- The premises of the release statement on the route in IN_USE. -/
theorem passing_premises (gs : List GroupState) (a b c : Reported) (n : Byte) (h : gs.length = 2) :
    let s := passing gs a b c n
    (s.route 0).state = .inUse ∧ (∀ c x, s.ctx c = some x → x.route ≠ 0) ∧ (∀ w ∈ s.waitList, w.route ≠ 0) ∧
      (s.route 0).groups.length = 2 :=
  ⟨rfl, fun c x h => (nomatch (show (none : Option Ctx) = some x from h)),
    fun w h => absurd (h : w ∈ []) List.not_mem_nil, h⟩

/-- The event of a Status Telegram with the fields of sections 0102 and 0103. -/
def field (first second : Byte) (s : State) : Ev :=
  ((Ev.start s).validTelegram .f).statusJudged (codesPayload 0x11 first second 0x31 9)

theorem field_exec (first second : Byte) (s : State)
    (h : statusPayload (codesBytes 0x11 first second 0x31 9) = some (codesPayload 0x11 first second 0x31 9)) :
    exec (.statusTelegram (codesBytes 0x11 first second 0x31 9)) s = .next (field first second s).settle :=
  statusTelegram_event s _ _ h

/-- Group 1 is vacated behind a train in group 2; group 1 is empty and the train is seen in group 2; group 1 is vacated
and no train seen in group 2; the last group is vacated with the berth OCCUPIED, with and without an overlap time. -/
theorem witness_GroupsAreReleased :
    (let s := passing [.seen, .seen] .occupied .occupied .vacant 10
     (s.rrow 0).groups = 2 ∧ Claims.releaseDue s (field 0x21 0x22 s).settle 0 1 ∧
       ¬ Claims.releaseDue s (field 0x21 0x22 s).settle 0 2 ∧ (s.route 0).groupState 2 ≠ .released) ∧
    (let s := passing [.seen, .reserved] .vacant .vacant .vacant 10
     Claims.releaseDue s (field 0x21 0x22 s).settle 0 1) ∧
    (let s := passing [.seen, .reserved] .occupied .vacant .vacant 10
     (s.route 0).groupState 1 = .seen ∧ ¬ Claims.releaseDue s (field 0x21 0x21 s).settle 0 1) ∧
    (let s := passing [.released, .seen] .vacant .occupied .occupied 10
     (s.rrow 0).ovTime ≠ 0 ∧ (s.route 0).groupState 1 = .released ∧
       Claims.releaseDue s (field 0x21 0x21 s).settle 0 2) ∧
    (let s := passing [.released, .seen] .vacant .occupied .occupied 0
     (s.rrow 0).ovTime = 0 ∧ (s.route 0).groupState 1 = .released ∧
       Claims.releaseDue s (field 0x21 0x21 s).settle 0 2) := by
  simp only [Claims.releaseDue, Ev.settle_holds, Ev.settle_groupVacant]
  refine ⟨⟨?_, ?_, ?_, ?_⟩, ?_, ⟨?_, ?_⟩, ⟨?_, ?_, ?_⟩, ?_, ?_, ?_⟩ <;> decide +kernel

/-- An EXIT route in HELD_OUT whose train stands beyond the border: the Border Status that reports it there. -/
theorem witness_ExitRouteHandsBack :
    let s : State := { traded .heldOut (some 5) with routes := [(1, { state := .inUse, groups := [.seen] })] }
    let ev := ((Ev.start s).validTelegram .b1).borderStatus .b1 [1, 0, 0x22, 0]
    exec (.borderStatus .b1 [1, 0, 0x22, 0]) s = .next ev.settle ∧ Claims.releaseDue s ev.settle 1 1 ∧
      (s.rrow 1).groups = 1 ∧ (s.rrow 1).ovTime = 0 ∧ s.routeKind 1 = some .exit ∧
      s.elemLink (s.rrow 1).dest = some .b1 ∧ s.transOf (s.rrow 1).dest = { state := .heldOut, reference := some 5 } ∧
      (∀ c, s.ctx c = none) ∧ (∀ q, q ≠ 1 → (s.route q).state = .free) := by
  refine ⟨rfl, ?_, by decide +kernel, by decide +kernel, by decide +kernel, by decide +kernel, by decide +kernel,
    fun _ => rfl, fun q h => ?_⟩
  · simp only [Claims.releaseDue, Ev.settle_holds, Ev.settle_groupVacant]
    decide +kernel
  · unfold State.route
    simp only [tblGet, if_neg h]

theorem witness_Frames : (Frame.mk 0x20 0x11 0 offered).payload.length < 65536 := by decide +kernel

theorem witness_DecodeOfEncoded :
    (Instr.setRoute 7 mainKey).wf = true ∧
      encodeTelegram (.setRoute 7 mainKey) = some (.c, requestBytes .setRoute 7 mainKey) ∧
    (Instr.invalidBorderTelegram .b2 [1]).wf = true ∧
      encodeTelegram (.invalidBorderTelegram .b2 [1]) = some (.b2, [1]) := by decide +kernel

end Sys2Proof.Tests
end

/-! PROOF SUPPORT. A border transaction telegram on a link that it does not bring UP, once for all kinds: the event in
which the BL acts, the end of an event that only sends, and the reports that an event keeps. -/

namespace Sys2Proof.Machine

/-! ### Reads after a write of another record -/

@[simp] theorem State.ctx_setCtxTimer (s : State) (c : Nat) (x : Option Timer) : (s.setCtxTimer c x).ctx = s.ctx := rfl
@[simp] theorem State.ctx_modRoute (s : State) (r : Nat) (f : RouteRec → RouteRec) : (s.modRoute r f).ctx = s.ctx := rfl
@[simp] theorem State.ctxTimer_modRoute (s : State) (r : Nat) (f : RouteRec → RouteRec) :
    (s.modRoute r f).ctxTimer = s.ctxTimer := rfl
@[simp] theorem State.ctx_freeCtx (s : State) (c k : Nat) :
    (s.freeCtx c).ctx k = if k = c then none else s.ctx k := s.ctx_setCtx c k none
@[simp] theorem State.ctxTimer_freeCtx (s : State) (c k : Nat) :
    (s.freeCtx c).ctxTimer k = if k = c then none else s.ctxTimer k := (s.setCtx c none).ctxTimer_setCtxTimer c k none
@[simp] theorem State.transOf_freeCtx (s : State) (c : Nat) : (s.freeCtx c).transOf = s.transOf := rfl
@[simp] theorem State.transOf_modRoute (s : State) (r : Nat) (f : RouteRec → RouteRec) :
    (s.modRoute r f).transOf = s.transOf := rfl
@[simp] theorem State.route_freeCtx (s : State) (c : Nat) : (s.freeCtx c).route = s.route := rfl
@[simp] theorem State.elem_freeCtx (s : State) (c : Nat) : (s.freeCtx c).elem = s.elem := rfl
@[simp] theorem State.elem_setRoute (s : State) (r : Nat) (w : RouteRec) : (s.setRoute r w).elem = s.elem := rfl
@[simp] theorem State.elem_modRoute (s : State) (r : Nat) (f : RouteRec → RouteRec) :
    (s.modRoute r f).elem = s.elem := rfl
@[simp] theorem State.setTrans_reads (s : State) (e : Nat) (x : TransRec) :
    (s.setTrans e x).ctx = s.ctx ∧ (s.setTrans e x).route = s.route ∧ (s.setTrans e x).elem = s.elem ∧
    (s.setTrans e x).routeKind = s.routeKind ∧ (s.setTrans e x).rrow = s.rrow ∧ (s.setTrans e x).desig = s.desig ∧
    (s.setTrans e x).routeKeyOf = s.routeKeyOf := by and_intros <;> rfl

/-! ### The link watch -/

@[simp] theorem State.taken_others (s : State) (p : Port) :
    (s.taken p).store = s.store ∧ (s.taken p).tablesValid = s.tablesValid ∧ (s.taken p).elems = s.elems ∧
    (s.taken p).blocked = s.blocked ∧ (s.taken p).mode = s.mode ∧ (s.taken p).mask = s.mask ∧
    (s.taken p).trans = s.trans ∧ (s.taken p).routes = s.routes ∧ (s.taken p).contexts = s.contexts ∧
    (s.taken p).ctxTimers = s.ctxTimers ∧ (s.taken p).sent = s.sent := by
  cases p <;> and_intros <;> rfl

/-- What the BL reads of a state is not touched when the link watch counts a telegram. -/
@[simp] theorem State.taken_reads (s : State) (p : Port) :
    (s.taken p).elem = s.elem ∧ (s.taken p).transOf = s.transOf ∧ (s.taken p).route = s.route ∧
    (s.taken p).ctx = s.ctx ∧ (s.taken p).ctxTimer = s.ctxTimer ∧ (s.taken p).desig = s.desig ∧
    (s.taken p).pointByte = s.pointByte ∧ (s.taken p).routeKeyOf = s.routeKeyOf ∧
    (s.taken p).ctxAwaiting = s.ctxAwaiting ∧ (s.taken p).borderElem = s.borderElem ∧
    (s.taken p).rrow = s.rrow ∧ (s.taken p).routeKind = s.routeKind := by
  cases p <;> and_intros <;> rfl

/-- A telegram that does not bring its link UP leaves every link in its state. -/
theorem State.linkState_taken (s : State) (p q : Port) (h : s.comesUp p = false) :
    ((s.taken p).link q).state = (s.link q).state := by
  have hl : (s.taken p).link q = (s.setLink p (s.heardOn p)).link q := by cases q <;> rfl
  rw [hl, State.link_setLink]
  split
  · next hq => subst hq; simp [State.heardOn, h]
  · rfl

/-! ### The event in which the BL acts -/

/-- The event of a valid B-link telegram once the link watch has counted it. -/
def Ev.heard (s : State) (l : Link) : Ev := ⟨s, s.taken l.port, [], []⟩

@[simp] theorem Ev.heard_fields (s : State) (l : Link) : (Ev.heard s l).s = s.taken l.port ∧
    (Ev.heard s l).before = s ∧ (Ev.heard s l).offers = [] ∧ (Ev.heard s l).reached = [] := ⟨rfl, rfl, rfl, rfl⟩

theorem takeBorder_eq_settle (l : Link) (fits : Bool) (body : Ev → Ev) (s : State) (hf : fits = true)
    (hu : s.comesUp l.port = false) : takeBorder l fits body s = (body (Ev.heard s l)).settle := by
  unfold takeBorder
  rw [if_pos hf, Ev.validTelegram_eq s l.port (.inr hu), State.linkOffers, hu]
  rfl

/-- A telegram whose number a BORDER element of the link carries goes to that element's transaction (R141). -/
theorem Ev.onBorder_of_found (ev : Ev) (l : Link) (tx : BorderTx) (f : Nat → Ev) {e : Nat}
    (h : ev.s.borderElem l tx.point.toNat = some e) : ev.onBorder l tx f = f e := by
  unfold Ev.onBorder
  rw [h]

theorem exec_offer (l : Link) (p : List Byte) (s : State) (hf : borderTransactionFits p = true)
    (hu : s.comesUp l.port = false) :
    exec (.offer l p) s = .next ((Ev.heard s l).offer l (borderTxOf .offer p)).settle :=
  congrArg Host.Outcome.next (takeBorder_eq_settle l _ _ s hf hu)

@[simp] theorem borderTxOf_fields (k : BorderKind) (p : List Byte) : (borderTxOf k p).point = byteAt p 0 ∧
    (borderTxOf k p).reference = byteAt p 1 ∧ (borderTxOf k p).reason = byteAt p 2 := ⟨rfl, rfl, rfl⟩

/-- A telegram whose number a BORDER element carries is taken as its kind says of that element's transaction. -/
theorem takeBorder_onBorder (l : Link) (k : BorderKind) (p : List Byte) (body : Ev → Nat → Ev) (s : State) {e : Nat}
    (hf : borderTransactionFits p = true) (hu : s.comesUp l.port = false)
    (he : s.borderElem l (byteAt p 0).toNat = some e) :
    takeBorder l (borderTransactionFits p) (fun ev => ev.onBorder l (borderTxOf k p) (body ev)) s
      = (body (Ev.heard s l) e).settle := by
  have hb : (Ev.heard s l).s.borderElem l (borderTxOf k p).point.toNat = some e := by
    simpa using he
  rw [takeBorder_eq_settle l _ _ s hf hu, Ev.onBorder_of_found _ l _ _ hb]

theorem exec_accept (l : Link) (p : List Byte) (s : State) {e : Nat} (hf : borderTransactionFits p = true)
    (hu : s.comesUp l.port = false) (he : s.borderElem l (byteAt p 0).toNat = some e) :
    exec (.accept l p) s = .next ((Ev.heard s l).accept l (borderTxOf .accept p) e).settle :=
  congrArg Host.Outcome.next
    (takeBorder_onBorder l .accept p (fun ev => ev.accept l (borderTxOf .accept p)) s hf hu he)

theorem exec_decline (l : Link) (p : List Byte) (s : State) {e : Nat} (hf : borderTransactionFits p = true)
    (hu : s.comesUp l.port = false) (he : s.borderElem l (byteAt p 0).toNat = some e) :
    exec (.decline l p) s = .next ((Ev.heard s l).decline l (borderTxOf .decline p) e).settle :=
  congrArg Host.Outcome.next
    (takeBorder_onBorder l .decline p (fun ev => ev.decline l (borderTxOf .decline p)) s hf hu he)

/-! ### Events that only send and report -/

/-- A B-link telegram that only has telegrams sent and reports raised is handed on to no one. -/
theorem settle_of_sent (s : State) (l : Link) (sent : List Sent) (offers : List Offer)
    (hu : s.comesUp l.port = false) :
    Ev.settle ⟨s, { s.taken l.port with sent := sent }, offers, []⟩
      = ({ s.taken l.port with sent := sent } : State).reporting offers :=
  settle_of_same s { s.taken l.port with sent := sent } offers (by simp) (by simp) (by simp) (by simp)
    (s.linkState_taken l.port .b1 hu) (s.linkState_taken l.port .b2 hu)
    (by simp [State.transOf]) (by simp [State.route]) (by simp)

/-- A telegram that the BL ignores. -/
theorem Ev.heard_settle (s : State) (l : Link) (hu : s.comesUp l.port = false) :
    (Ev.heard s l).settle = s.taken l.port := settle_of_sent s l (s.taken l.port).sent [] hu

/-- A telegram that the BL answers, without a report. -/
theorem Ev.heard_sendBorder_settle (s : State) (l : Link) (tx : BorderTx) (hu : s.comesUp l.port = false) :
    ((Ev.heard s l).sendBorder l tx).settle = (s.taken l.port).send l.port (.transaction tx) :=
  settle_of_sent s l _ [] hu

/-- An Accept that is too late (R146). -/
theorem Ev.heard_sendTooLate_settle (s : State) (l : Link) (e : Nat) (point reference : Byte)
    (hu : s.comesUp l.port = false) : ((Ev.heard s l).sendTooLate l e point reference).settle
      = s.answeredBorder l (some e) (plainTx .withdraw point reference 0x07) := by
  have hd : (s.taken l.port).desig e = s.desig e := by simp
  have ht : (s.taken l.port).transOf e = s.transOf e := by simp
  refine .trans (congrArg Ev.settle ?_) (settle_of_sent s l
    ((s.taken l.port).sent ++ [⟨l.port, .transaction (plainTx .withdraw point reference 0x07)⟩])
    [⟨.border l, .border (s.unchangedBorder l (some e) (plainTx .withdraw point reference 0x07))⟩] hu)
  simp only [State.unchangedBorder, Option.map_some, Option.getD_some, ← hd, ← ht]
  rfl

/-! ### The reports that an event keeps -/

@[simp] theorem Ev.routeReport_fields (ev : Ev) (r : Nat) (w : RouteRec) (x : RouteEvent) :
    (ev.routeReport r w x).before = ev.before ∧ (ev.routeReport r w x).offers = ev.offers ++
      [⟨.route, .route { route := r, key := ev.s.routeKeyOf r, event := x, origin := w.origin,
                         deferred := w.deferred, clamped := w.clamped }⟩] := ⟨rfl, rfl⟩

theorem Ev.raised_raise (ev : Ev) (src : Src) (r : Report) (h : src.base = src) : (ev.raise src r).raised src r :=
  ⟨⟨src, r⟩, by simp, h, rfl⟩

theorem Ev.raised_mono {a b : Ev} {src : Src} {r : Report} (h : a.offers <+: b.offers) (hr : a.raised src r) :
    b.raised src r := by
  obtain ⟨o, ho, hs⟩ := hr
  exact ⟨o, h.subset ho, hs⟩

theorem Ev.offers_kept_part (ev : Ev) (q : Sequence) (k : Nat) (f : Ev → Ev) :
    ev.offers <+: (ev.part q k f).offers := List.prefix_append _ _

theorem Ev.offers_kept_inOrder (ev : Ev) (q : Sequence) (k : Nat) (fs : List (Ev → Ev)) :
    ev.offers <+: (ev.inOrder q k fs).offers := by
  induction fs generalizing ev k with
  | nil => exact List.prefix_rfl
  | cons f fs ih => exact (ev.offers_kept_part q k f).trans (ih (ev.part q k f) (k + 1))

/-- What a part of a sequence raises is raised, whatever part it is. -/
theorem Ev.raised_part (ev : Ev) (q : Sequence) (k : Nat) (f : Ev → Ev) {src : Src} {r : Report}
    (h : (f { ev with offers := [] }).raised src r) : (ev.part q k f).raised src r := by
  obtain ⟨o, ho, hs, hrep⟩ := h
  exact ⟨{ o with src := .part q k o.src }, List.mem_append_right _ (List.mem_map_of_mem ho), hs, hrep⟩

end Sys2Proof.Machine

/-! PROOFS. The answers to an Offer: Accept (R86, R146) and Decline (R89, R90, R147), and the repeated Offer of R143
step 5. -/

namespace Sys2Proof.Machine

/-- The context that awaits the reply to an Offer is that of an EXIT route to the BORDER element (R86, R142). -/
theorem State.ctxAwaiting_spec {s : State} {e c : Nat} (h : s.ctxAwaiting e = some c) :
    ∃ x, s.ctx c = some x ∧ s.routeKind x.route = some .exit ∧ (s.rrow x.route).dest = e := by
  have hp := List.find?_some h
  split at hp
  · next x hx =>
    simp only [Bool.and_eq_true, beq_iff_eq] at hp
    obtain ⟨⟨-, hk⟩, hd⟩ := hp
    exact ⟨x, hx, hk, hd⟩
  · cases hp

/-- A change of a transaction raises its Border Report (R140). -/
theorem Ev.raised_changeTrans (ev : Ev) (l : Link) (e : Nat) (t : TransRec) (ref : Byte) (cause : BorderCause)
    (reason : Option Byte) : (ev.changeTrans l e t ref cause reason).raised (.border l) (.border
      { designation := ev.s.desig e, link := l, point := ev.s.pointByte e, before := some (ev.s.transOf e).state,
        after := some t.state, reference := ref, cause := cause, reason := reason }) :=
  Ev.raised_raise (ev.on (fun s => s.setTrans e t)) _ _ rfl

/-! ### Accept -/

/-- The transaction of an accepted Offer (R146). -/
def Ev.holdOut (ev : Ev) (l : Link) (e : Nat) (ref : Byte) : Ev :=
  ev.changeTrans l e { ev.s.transOf e with state := .heldOut } ref (.received .accept) none

theorem Ev.accept_of_matching (ev : Ev) (l : Link) (tx : BorderTx) (e : Nat)
    (ht : (ev.s.transOf e).state = .offerSent) (hr : (ev.s.transOf e).reference = some tx.reference) :
    ev.accept l tx e =
      match ev.s.ctxAwaiting e with
      | some c => (ev.holdOut l e tx.reference).replyArrived c
      | none => ev.holdOut l e tx.reference := by
  have hm : ev.accept l tx e =
      match (ev.holdOut l e tx.reference).s.ctxAwaiting e with
      | some c => (ev.holdOut l e tx.reference).replyArrived c
      | none => ev.holdOut l e tx.reference := by
    unfold Ev.accept Ev.holdOut
    dsimp only
    split
    · rfl
    · next h _ => simp [ht] at h
    · next h _ => simp [ht, hr] at h
  exact hm

theorem Ev.accept_of_repeated (ev : Ev) (l : Link) (tx : BorderTx) (e : Nat)
    (ht : (ev.s.transOf e).state = .heldOut) (hr : (ev.s.transOf e).reference = some tx.reference) :
    ev.accept l tx e = ev := by
  unfold Ev.accept
  simp only [ht, hr, decide_true]

theorem Ev.accept_of_tooLate (ev : Ev) (l : Link) (tx : BorderTx) (e : Nat)
    (h : (ev.s.transOf e).state ≠ .offerSent ∧ (ev.s.transOf e).state ≠ .heldOut ∨
      (ev.s.transOf e).reference ≠ some tx.reference) :
    ev.accept l tx e = ev.sendTooLate l e tx.point tx.reference := by
  unfold Ev.accept
  dsimp only
  split
  · next ht hr => simp [ht, of_decide_eq_true hr] at h
  · next ht hr => simp [ht, of_decide_eq_true hr] at h
  · rfl

/-- What a context does at the reply that it awaits: without awaited points it completes, and its EXIT route becomes
LOCKED; else it stays ACTIVE without BORDER_REPLY (R86, R87). -/
structure Ev.TakesReply (a b : Ev) (c : Nat) (x : Ctx) : Prop where
  before : b.before = a.before
  trans : b.s.transOf = a.s.transOf
  offers : a.offers <+: b.offers
  stopped : b.s.ctxTimer c = none
  waits : x.awaited ≠ [] → b.s.ctx c = some { x with reply := false }
  completes : x.awaited = [] → b.s.ctx c = none ∧ (b.s.route x.route).state = .locked

/-- A context whose route is no ENTRY route completes without a telegram (R87, R88). -/
theorem Ev.completeCtx_of_not_entry (ev : Ev) {c : Nat} {x : Ctx} (hx : ev.s.ctx c = some x)
    (he : ev.s.isEntry x.route = false) :
    ev.completeCtx c =
      ((ev.on (fun s => (s.freeCtx c).modRoute x.route
        (fun w => { w with state := .locked, context := none, clearWanted := true }))).routeEvent x.route .locked).reach
        x.route := by
  have h : ∀ f : RouteRec → RouteRec, ((ev.s.freeCtx c).modRoute x.route f).isEntry x.route = false := fun _ => he
  unfold Ev.completeCtx
  simp only [hx, Ev.reach_fields, Ev.routeEvent_s, Ev.on_fields, h]

/-- BORDER_REPLY leaves a context's awaited set, and its timer stops (R86). -/
def State.takeReply (s : State) (c : Nat) (x : Ctx) : State :=
  (s.setCtx c (some { x with reply := false })).setCtxTimer c none

@[simp] theorem State.ctx_takeReply (s : State) (c : Nat) (x : Ctx) :
    (s.takeReply c x).ctx c = some { x with reply := false } := by simp [State.takeReply]
@[simp] theorem State.ctxTimer_takeReply (s : State) (c : Nat) (x : Ctx) : (s.takeReply c x).ctxTimer c = none := by
  simp [State.takeReply]
@[simp] theorem State.transOf_takeReply (s : State) (c : Nat) (x : Ctx) : (s.takeReply c x).transOf = s.transOf := rfl
@[simp] theorem State.isEntry_takeReply (s : State) (c : Nat) (x : Ctx) : (s.takeReply c x).isEntry = s.isEntry := rfl

theorem Ev.replyArrived_eq (ev : Ev) {c : Nat} {x : Ctx} (hx : ev.s.ctx c = some x) :
    ev.replyArrived c = if x.awaited = [] then (ev.on (fun s => s.takeReply c x)).completeCtx c
      else ev.on (fun s => s.takeReply c x) := by
  have h : ev.replyArrived c = (ev.on (fun s => s.takeReply c x)).completeIfDone c := by
    unfold Ev.replyArrived
    rw [hx]
    rfl
  rw [h]
  unfold Ev.completeIfDone
  simp

theorem Ev.replyArrived_takesReply (ev : Ev) {c : Nat} {x : Ctx} (hx : ev.s.ctx c = some x)
    (he : ev.s.isEntry x.route = false) : Ev.TakesReply ev (ev.replyArrived c) c x := by
  rw [ev.replyArrived_eq hx]
  split
  · next hw =>
    rw [Ev.completeCtx_of_not_entry _ (x := { x with reply := false }) (by simp) (by simpa using he)]
    exact {
      before := by simp [Ev.routeEvent]
      trans := by simp
      offers := by simp [Ev.routeEvent]
      stopped := by simp
      waits := fun h => absurd hw h
      completes := fun _ => by simp }
  · next hw =>
    exact {
      before := rfl
      trans := by simp
      offers := List.prefix_rfl
      stopped := by simp
      waits := fun _ => by simp
      completes := fun h => absurd h hw }

/-- An Offer under the reference held in IN_HELD is answered Accept again (R143 step 5). -/
theorem Ev.offer_of_inHeld (ev : Ev) (l : Link) (tx : BorderTx) {e : Nat} (hm : ev.s.mode = .operational)
    (he : ev.s.borderElem l tx.point.toNat = some e) (ht : (ev.s.transOf e).state = .inHeld)
    (hr : (ev.s.transOf e).reference = some tx.reference) :
    ev.offer l tx = ev.sendBorder l (plainTx .accept tx.point tx.reference 0) := by
  unfold Ev.offer
  simp [hm, he, ht, hr]

/-! ### Decline -/

theorem Ev.decline_of_other (ev : Ev) (l : Link) (tx : BorderTx) (e : Nat)
    (h : ¬ ((ev.s.transOf e).state = .offerSent ∧ (ev.s.transOf e).reference = some tx.reference)) :
    ev.decline l tx e = ev := if_neg h

/-- The transaction of a declined Offer ends (R147). -/
def Ev.endOffer (ev : Ev) (l : Link) (e : Nat) (tx : BorderTx) : Ev :=
  ev.changeTrans l e {} tx.reference (.received .decline) (some tx.reason)

theorem Ev.decline_of_matching (ev : Ev) (l : Link) (tx : BorderTx) (e : Nat)
    (h : (ev.s.transOf e).state = .offerSent ∧ (ev.s.transOf e).reference = some tx.reference) :
    ev.decline l tx e =
      match ev.s.ctxAwaiting e with
      | some c => (ev.endOffer l e tx).failCtx c .borderDeclined e true
      | none => ev.endOffer l e tx := if_pos h

/-- A Decline touches nothing but what routes, contexts, transactions and elements hold. -/
theorem Ev.decline_handedOn (ev : Ev) (l : Link) (tx : BorderTx) (e : Nat) :
    HandedOn ev.s (ev.decline l tx e).s := by
  unfold Ev.decline
  dsimp only
  split
  · split
    · exact (ev.changeTrans_handedOn l e _ _ _ _).trans (Ev.failCtx_handedOn _ _ _ _ _)
    · exact ev.changeTrans_handedOn l e _ _ _ _
  · exact .refl _

/-! ### The release of a failed context's route -/

theorem State.elem_foldl_unlock (es : List Nat) (s : State) (k : Nat) :
    (es.foldl State.unlock s).elem k = if k ∈ es then { s.elem k with lockOwner := none } else s.elem k := by
  induction es generalizing s with
  | nil => simp
  | cons e es ih =>
    rw [List.foldl_cons, ih, State.unlock, State.elem_modElem]
    by_cases hk : k = e
    · subst hk; simp
    · simp [hk]

theorem State.foldl_unlock_frame (es : List Nat) (s : State) :
    es.foldl State.unlock s = { s with elems := (es.foldl State.unlock s).elems } := by
  induction es generalizing s with
  | nil => rfl
  | cons e es ih => exact ih (s.unlock e)

theorem State.mem_lockedBy (s : State) (r k : Nat) (h : (s.elem k).lockOwner = some r) : k ∈ s.lockedBy r := by
  have hne : tblGet {} s.elems k ≠ ({} : Elem) := fun e => by
    have hk : s.elem k = {} := by unfold State.elem; rw [e]
    simp [hk] at h
  exact List.mem_map.2 ⟨_, List.mem_filter.2 ⟨mem_tblKeys_of_get_ne _ s.elems k hne, beq_iff_eq.2 h⟩, rfl⟩

/-- No element stays locked by a route whose locks are cleared (R90 step 1). -/
theorem State.lockOwner_unlockAll (s : State) (r k : Nat) : ((s.unlockAll r).elem k).lockOwner ≠ some r := by
  unfold State.unlockAll
  rw [State.elem_foldl_unlock]
  split
  · simp
  · next hk => exact fun h => hk (s.mem_lockedBy r k h)

theorem State.claims_unlockAll (s : State) (r k : Nat) : ((s.unlockAll r).elem k).claims = (s.elem k).claims := by
  unfold State.unlockAll
  rw [State.elem_foldl_unlock]
  split <;> rfl

@[simp] theorem State.unlockAll_frame (s : State) (r : Nat) : (s.unlockAll r).routes = s.routes ∧
    (s.unlockAll r).trans = s.trans ∧ (s.unlockAll r).sent = s.sent := by
  unfold State.unlockAll
  rw [State.foldl_unlock_frame]
  exact ⟨rfl, rfl, rfl⟩

theorem State.foldl_dropClaim_frame (fs : List FlankRec) (s : State) :
    fs.foldl State.dropClaim s = { s with elems := (fs.foldl State.dropClaim s).elems } := by
  induction fs generalizing s with
  | nil => rfl
  | cons f fs ih => exact ih (s.dropClaim f)

/-- Every record dropped takes one claim from its element (R107 step 2). -/
theorem State.claims_foldl_dropClaim (fs : List FlankRec) (s : State) (k : Nat) :
    ((fs.foldl State.dropClaim s).elem k).claims
      = (s.elem k).claims - (fs.filter (fun f => f.elem == k)).length := by
  induction fs generalizing s with
  | nil => rfl
  | cons f fs ih =>
    rw [List.foldl_cons, ih, State.dropClaim, State.elem_modElem]
    by_cases hk : k = f.elem
    · subst hk; simp; omega
    · simp [hk, Ne.symm hk]

/-- Every claim of a route is dropped (R107). -/
theorem State.claims_dropClaims_all (s : State) (r k : Nat) :
    ((s.dropClaims r (fun _ => true)).elem k).claims
      = (s.elem k).claims - ((s.route r).flank.filter (fun f => f.elem == k)).length := by
  have h := State.claims_foldl_dropClaim ((s.route r).flank.filter (fun _ => true)) s k
  unfold State.dropClaims
  rw [State.elem_modRoute, h, List.filter_true]

@[simp] theorem State.dropClaims_frame (s : State) (r : Nat) (p : FlankRec → Bool) :
    (s.dropClaims r p).trans = s.trans ∧ (s.dropClaims r p).sent = s.sent := by
  unfold State.dropClaims
  dsimp only
  rw [State.foldl_dropClaim_frame]
  exact ⟨rfl, rfl⟩

/-- The release of the route of a failed context (R90). -/
def State.releaseSetting (s : State) (c r : Nat) : State :=
  (((s.unlockAll r).dropClaims r (fun _ => true)).setRoute r {}).freeCtx c

theorem State.releaseSetting_handedOn (s : State) (c r : Nat) : HandedOn (s.unlockAll r) (s.releaseSetting c r) :=
  ((State.dropClaims_handedOn _ r _).trans (State.setRoute_handedOn _ r {})).trans (State.freeCtx_handedOn _ c)

/-- What the release of a failed context's route leaves (R90). -/
structure State.SettingReleased (s t : State) (c r : Nat) : Prop where
  ctx : t.ctx c = none
  ctxTimer : t.ctxTimer c = none
  route : t.route r = {}
  unlocked : ∀ k, (t.elem k).lockOwner ≠ some r
  claims : ∀ k, (t.elem k).claims = (s.elem k).claims - ((s.route r).flank.filter (fun f => f.elem == k)).length
  trans : t.transOf = s.transOf

theorem State.releaseSetting_released (s : State) (c r : Nat) : s.SettingReleased (s.releaseSetting c r) c r where
  ctx := by simp [State.releaseSetting]
  ctxTimer := by simp [State.releaseSetting]
  route := by simp [State.releaseSetting]
  unlocked k h := s.lockOwner_unlockAll r k ((s.releaseSetting_handedOn c r).lock k r h)
  claims k := by
    have hr : (s.unlockAll r).route r = s.route r := by simp [State.route]
    rw [State.releaseSetting, State.elem_freeCtx, State.elem_setRoute, State.claims_dropClaims_all, hr,
      State.claims_unlockAll]
  trans := by funext k; simp [State.releaseSetting, State.transOf]

@[simp] theorem State.releaseSetting_sent (s : State) (c r : Nat) : (s.releaseSetting c r).sent = s.sent := by
  simp [State.releaseSetting]

/-! ### The failure of a context -/

theorem Ev.declineOrigin_before (ev : Ev) (r : Nat) (o : Option Origin) (x : Reason) :
    (ev.declineOrigin r o x).before = ev.before := by
  unfold Ev.declineOrigin
  split
  · rfl
  · rfl

/-- At most a Decline is sent. -/
theorem Ev.declineOrigin_s (ev : Ev) (r : Nat) (o : Option Origin) (x : Reason) :
    (ev.declineOrigin r o x).s = { ev.s with sent := (ev.declineOrigin r o x).s.sent } := by
  unfold Ev.declineOrigin
  split
  · rfl
  · rfl

/-- Nothing is sent for a route that no neighbour asked for. -/
theorem Ev.declineOrigin_sent_of_control (ev : Ev) (r : Nat) (o : Option Origin) (x : Reason)
    (h : o = none ∨ ∃ tag, o = some (.control tag)) : (ev.declineOrigin r o x).s.sent = ev.s.sent := by
  rcases h with rfl | ⟨tag, rfl⟩
  · rfl
  · rfl

/-- A failed route is reported REFUSED, and then a neighbour that asked for it is answered (R89). -/
def Ev.refuse (ev : Ev) (r : Nat) (w : RouteRec) (reason : Reason) (named : Nat) : Ev :=
  ev.inOrder (.failure r) 0 [fun b => b.routeReport r w (.refused reason (b.s.desig named)),
    fun b => b.declineOrigin r w.origin reason]

section

variable (ev : Ev) (r : Nat) (w : RouteRec) (reason : Reason) (named : Nat)

theorem Ev.refuse_before : (ev.refuse r w reason named).before = ev.before := Ev.declineOrigin_before ..

theorem Ev.refuse_s : (ev.refuse r w reason named).s = { ev.s with sent := (ev.refuse r w reason named).s.sent } :=
  Ev.declineOrigin_s ..

theorem Ev.refuse_sent_of_control (h : w.origin = none ∨ ∃ tag, w.origin = some (.control tag)) :
    (ev.refuse r w reason named).s.sent = ev.s.sent := Ev.declineOrigin_sent_of_control _ r w.origin reason h

theorem Ev.raised_refuse : (ev.refuse r w reason named).raised .route (.route
    { route := r, key := ev.s.routeKeyOf r, event := .refused reason (ev.s.desig named), origin := w.origin,
      deferred := w.deferred, clamped := w.clamped }) :=
  Ev.raised_mono (Ev.offers_kept_inOrder _ _ _ [_])
    (ev.raised_part (.failure r) 0 _ (Ev.raised_raise { ev with offers := [] } _ _ rfl))

end

/-- A failure whose transaction is over withdraws no Offer: the route is released and reported REFUSED, and a neighbour
is answered Decline (R89, R90). -/
theorem Ev.failCtx_of_idle (ev : Ev) {c : Nat} {x : Ctx} (reason : Reason) (named : Nat) (hx : ev.s.ctx c = some x)
    (hi : (ev.s.transOf (ev.s.rrow x.route).dest).state = .idle) :
    ev.failCtx c reason named true =
      (ev.on (fun s => s.releaseSetting c x.route)).refuse x.route (ev.s.route x.route) reason named := by
  unfold Ev.failCtx
  simp only [hx, hi, if_true]
  cases x.offerRef with
  | none => rfl
  | some ref =>
    cases ev.s.elemLink (ev.s.rrow x.route).dest with
    | none => rfl
    | some l => rfl

/-- What the failure of a context leaves whose transaction is over (R89, R90). -/
structure Ev.Fails (a b : Ev) (c : Nat) (x : Ctx) (reason : Reason) (named : Nat) : Prop where
  before : b.before = a.before
  released : a.s.SettingReleased b.s c x.route
  sent : (a.s.route x.route).origin = none ∨ (∃ tag, (a.s.route x.route).origin = some (.control tag)) →
    b.s.sent = a.s.sent
  offers : a.offers <+: b.offers
  refused : b.raised .route (.route
    { route := x.route, key := a.s.routeKeyOf x.route, event := .refused reason (a.s.desig named),
      origin := (a.s.route x.route).origin, deferred := (a.s.route x.route).deferred,
      clamped := (a.s.route x.route).clamped })

/-- Telegrams sent do not touch what a release leaves. -/
theorem State.SettingReleased.withSent {s t : State} {c r : Nat} (h : s.SettingReleased t c r) (sent : List Sent) :
    s.SettingReleased { t with sent := sent } c r := ⟨h.ctx, h.ctxTimer, h.route, h.unlocked, h.claims, h.trans⟩

theorem State.releaseSetting_tables (s : State) (c r : Nat) :
    (s.releaseSetting c r).desig = s.desig ∧ (s.releaseSetting c r).routeKeyOf = s.routeKeyOf := by
  have h : (s.releaseSetting c r).store = s.store :=
    ((s.releaseSetting_handedOn c r).fields.2.1).trans (s.unlockAll_handedOn r).fields.2.1
  constructor <;> funext k <;> simp only [State.routeKeyOf, State.desig, State.erow, State.rrow, h]

theorem Ev.failCtx_fails (ev : Ev) {c : Nat} {x : Ctx} (reason : Reason) (named : Nat) (hx : ev.s.ctx c = some x)
    (hi : (ev.s.transOf (ev.s.rrow x.route).dest).state = .idle) :
    Ev.Fails ev (ev.failCtx c reason named true) c x reason named := by
  rw [ev.failCtx_of_idle reason named hx hi]
  obtain ⟨hdesig, hkey⟩ := ev.s.releaseSetting_tables c x.route
  have hr := Ev.raised_refuse (ev.on (fun s => s.releaseSetting c x.route)) x.route (ev.s.route x.route) reason named
  rw [Ev.on_fields .. |>.1, hdesig, hkey] at hr
  exact {
    before := Ev.refuse_before ..
    released := by
      rw [Ev.refuse_s]
      exact (ev.s.releaseSetting_released c x.route).withSent _
    sent := fun h => by simp [Ev.refuse_sent_of_control _ _ _ _ _ h]
    offers := Ev.offers_kept_inOrder (ev.on _) _ _ _
    refused := hr }

/-! ### The answers as B-link events -/

section

variable (s : State) (l : Link) (tx : BorderTx) {e : Nat}

theorem Ev.heard_holdOut_s (ref : Byte) : ((Ev.heard s l).holdOut l e ref).s =
    (s.taken l.port).setTrans e { s.transOf e with state := .heldOut } := by
  have h : (s.taken l.port).transOf e = s.transOf e := by simp
  rw [← h]
  rfl

theorem Ev.heard_holdOut_raised (ref : Byte) (ht : (s.transOf e).state = .offerSent) :
    ((Ev.heard s l).holdOut l e ref).raised (.border l) (.border
      { designation := s.desig e, link := l, point := s.pointByte e, before := some .offerSent,
        after := some .heldOut, reference := ref, cause := .received .accept, reason := none }) := by
  have h := (Ev.heard s l).raised_changeTrans l e { s.transOf e with state := .heldOut } ref (.received .accept) none
  simpa [Ev.holdOut, ht] using h

theorem Ev.heard_endOffer_s : ((Ev.heard s l).endOffer l e tx).s = (s.taken l.port).setTrans e {} := rfl

theorem Ev.heard_endOffer_raised (ht : (s.transOf e).state = .offerSent) :
    ((Ev.heard s l).endOffer l e tx).raised (.border l) (.border
      { designation := s.desig e, link := l, point := s.pointByte e, before := some .offerSent, after := some .idle,
        reference := tx.reference, cause := .received .decline, reason := some tx.reason }) := by
  have h := (Ev.heard s l).raised_changeTrans l e {} tx.reference (.received .decline) (some tx.reason)
  simpa [Ev.endOffer, ht] using h

/-- An Accept of the Offer that is out, where a context awaits it (R86, R146). -/
theorem Ev.heard_accept_takesReply {c : Nat} {x : Ctx} (ht : (s.transOf e).state = .offerSent)
    (hr : (s.transOf e).reference = some tx.reference) (hc : s.ctxAwaiting e = some c) (hx : s.ctx c = some x) :
    Ev.TakesReply ((Ev.heard s l).holdOut l e tx.reference) ((Ev.heard s l).accept l tx e) c x := by
  obtain ⟨y, hy, hk, -⟩ := State.ctxAwaiting_spec hc
  obtain rfl : x = y := Option.some.inj (hx.symm.trans hy)
  rw [Ev.accept_of_matching _ l tx e (by simpa using ht) (by simpa using hr)]
  simp only [Ev.heard_fields, State.taken_reads, hc]
  refine Ev.replyArrived_takesReply _ ?_ ?_
  · simpa [Ev.heard_holdOut_s] using hx
  · simp [Ev.heard_holdOut_s, State.isEntry, hk]

/-- A Decline of the Offer that is out, where a context awaits the reply (R89, R147). -/
theorem Ev.heard_decline_fails {c : Nat} {x : Ctx}
    (h : (s.transOf e).state = .offerSent ∧ (s.transOf e).reference = some tx.reference)
    (hc : s.ctxAwaiting e = some c) (hx : s.ctx c = some x) :
    Ev.Fails ((Ev.heard s l).endOffer l e tx) ((Ev.heard s l).decline l tx e) c x .borderDeclined e := by
  obtain ⟨y, hy, -, hd⟩ := State.ctxAwaiting_spec hc
  obtain rfl : x = y := Option.some.inj (hx.symm.trans hy)
  rw [Ev.decline_of_matching _ l tx e (by simpa using h)]
  simp only [Ev.heard_fields, State.taken_reads, hc]
  refine Ev.failCtx_fails _ _ _ ?_ ?_
  · simpa [Ev.heard_endOffer_s] using hx
  · simp [Ev.heard_endOffer_s, hd]

end

end Sys2Proof.Machine

/-! PROOFS. The statements about the answers to an Offer. -/

section

open Sys2Proof Sys2Proof.Machine

/-- Settles O41: the four clauses are the branches of R146 and step 5 of R143, each by its own equation of the BL's
handling. -/
theorem acceptIsTaken : Obligations.AcceptIsTaken := by
  intro l p s e hf hu he
  rw [exec_accept l p s hf hu he, exec_offer l p s hf hu]
  refine ⟨fun ht hr => ?_, fun ht hr => ?_, fun h => ?_, fun hm ht hr => ?_⟩
  · have hraised := Ev.heard_holdOut_raised s l (byteAt p 1) ht
    cases hc : s.ctxAwaiting e with
    | none =>
      rw [Ev.accept_of_matching _ l _ e (by simpa using ht) (by simpa using hr)]
      simp only [Ev.heard_fields, State.taken_reads, hc]
      have hs := Ev.heard_holdOut_s s l (e := e) (byteAt p 1)
      exact ⟨_, rfl, rfl, by simp [hs], fun _ _ h => by simp at h, fun _ => hs, hraised⟩
    | some c =>
      obtain ⟨x, hx, -⟩ := State.ctxAwaiting_spec hc
      have taken := Ev.heard_accept_takesReply s l (borderTxOf .accept p) ht hr hc hx
      refine ⟨_, rfl, taken.before, ?_, ?_, fun h => by simp at h, Ev.raised_mono taken.offers hraised⟩
      · simp [taken.trans, Ev.heard_holdOut_s]
      · intro c' x' hc' hx'
        obtain rfl : c = c' := Option.some.inj hc'
        obtain rfl : x = x' := Option.some.inj (hx.symm.trans hx')
        exact ⟨taken.stopped, taken.waits, taken.completes⟩
  · rw [Ev.accept_of_repeated _ l _ e (by simpa using ht) (by simpa using hr), Ev.heard_settle s l hu]
  · rw [Ev.accept_of_tooLate _ l _ e (by simpa using h), Ev.heard_sendTooLate_settle s l e _ _ hu]
    rfl
  · rw [Ev.offer_of_inHeld _ l _ (by simpa using hm) (by simpa using he) (by simpa using ht) (by simpa using hr),
      Ev.heard_sendBorder_settle s l _ hu]
    rfl

/-- Settles O42: where a context awaits the reply, its failure over the ended transaction; the rest is R147's own. -/
theorem declineEndsOffer : Obligations.DeclineEndsOffer := by
  intro l p s e hf hu he
  rw [exec_decline l p s hf hu he]
  refine ⟨fun h => ?_, fun ht hr => ?_⟩
  · rw [Ev.decline_of_other _ l _ e (by simpa using h), Ev.heard_settle s l hu]
  · have hraised := Ev.heard_endOffer_raised s l (borderTxOf .decline p) ht
    have hframe : ((Ev.heard s l).decline l (borderTxOf .decline p) e).s = (s.taken l.port).withRoutesOf
        ((Ev.heard s l).decline l (borderTxOf .decline p) e).s := (Ev.decline_handedOn _ l _ e).frame
    cases hc : s.ctxAwaiting e with
    | none =>
      have hd : (Ev.heard s l).decline l (borderTxOf .decline p) e
          = (Ev.heard s l).endOffer l e (borderTxOf .decline p) := by
        rw [Ev.decline_of_matching _ l _ e (by simp [ht, hr])]
        simp only [Ev.heard_fields, State.taken_reads, hc]
      rw [hd] at hframe ⊢
      exact ⟨_, rfl, rfl, by simp [Ev.heard_endOffer_s], hraised, fun _ _ h => by simp at h, hframe⟩
    | some c =>
      obtain ⟨x, hx, -⟩ := State.ctxAwaiting_spec hc
      have fails := Ev.heard_decline_fails s l (borderTxOf .decline p) ⟨ht, hr⟩ hc hx
      have hs := Ev.heard_endOffer_s s l (borderTxOf .decline p) (e := e)
      refine ⟨_, rfl, fails.before, ?_, Ev.raised_mono fails.offers hraised, ?_, hframe⟩
      · simp [fails.released.trans, hs]
      · intro c' x' hc' hx'
        obtain rfl : c = c' := Option.some.inj hc'
        obtain rfl : x = x' := Option.some.inj (hx.symm.trans hx')
        have released := fails.released
        refine ⟨released.ctx, released.ctxTimer, released.route, released.unlocked, ?_, ?_, ?_⟩
        · simpa [hs] using released.claims
        · simpa [hs] using fails.sent
        · simpa [hs] using fails.refused

end

/-! PROOFS. The step, the values after reset, and what the part sends by its schedule. -/

namespace Sys2Proof.Machine

/-- What a state finds in records of which none is listed. -/
theorem State.reset_reads :
    (∀ e, State.reset.elem e = {}) ∧ (∀ e, State.reset.isBlocked e = false) ∧ (∀ e, State.reset.transOf e = {}) ∧
    (∀ r, State.reset.route r = {}) ∧ (∀ c, State.reset.ctx c = none) ∧ (∀ c, State.reset.ctxTimer c = none) ∧
    (∀ i, State.reset.timerOf i = none) ∧ State.reset.routeCount = 0 ∧ State.reset.requests = [] ∧
    State.reset.waitList = [] ∧ State.reset.routes = [] := by
  refine ⟨?_, ?_, ?_, ?_, ?_, ?_, ?_, rfl, rfl, rfl, rfl⟩
  all_goals exact fun _ => rfl

theorem State.reset_inv : State.reset.Inv where
  store := rfl
  queue := by decide
  queueOne e := by simp [State.reset, Report.isElement]
  requests := by decide
  safeN := by simp [State.reset]
  tick := by decide
  lost := by decide
  auxTimer := rfl
  auxMode h := by cases h
  startup := by simp [State.reset]
  map _ := rfl
  tables h := absurd rfl h
  routes _ _ := rfl
  contexts _ _ _ := rfl

theorem State.reset_owned : State.reset.Owned := by
  obtain ⟨helem, -, htrans, hroute, hctx, hctxTimer, htimer, hcount, hrequests, hwait, hroutes⟩ := State.reset_reads
  exact {
    routesWf := rfl
    tables := fun r h => by simp [hcount] at h
    inForce := fun r h => absurd (by simp [hroute]) h
    free := fun r _ => hroute r
    waiting := fun r _ => by simp [hroute]
    requests := fun r => by simp [hroute, hrequests]
    requestsOnce := List.nodup_nil
    context := fun c x h => by simp [hctx] at h
    setting := fun r h => by simp [hroute] at h
    noContext := fun r _ => by simp [hroute]
    stopped := fun c _ => hctxTimer c
    claims := fun e => by simp [helem, State.claimsOn, hroutes]
    noClaims := fun r _ => by simp [hroute]
    timer := fun i h ht => by simp [htimer] at ht
    timerHeld := fun r i h => by simp [hroute] at h
    deferred := fun r => by simp [hroute, hwait]
    deferredHolds := fun r _ => by simp [hroute]
    waitOnce := List.nodup_nil
    waitPurpose := fun w h => by simp [hwait] at h
    offered := fun e => by simp [htrans, State.awaitsReply, hctx]
    offerLocks := fun c x h => by simp [hctx] at h
    entryLocks := fun r _ h => by simp [hroute] at h
    entryOnce := fun e r q h => by simp [State.entryWaits, hroute] at h
    entryHeld := fun e r h => by simp [htrans] at h
    outside := fun _ => ⟨rfl, hctx, fun r => by simp [hroute]⟩ }

/-- A possible reservation is the first of the events that follow at once (R80). -/
theorem State.consequences_of_reservation {s : State} (h : s.nextReservation ≠ none) :
    ∃ rest, s.consequences = .reservation :: rest := by
  unfold State.consequences
  rw [if_pos (Option.isSome_iff_ne_none.2 h)]
  exact ⟨_, rfl⟩

/-! The branches of the idle step, by what it finds waiting. -/

theorem State.idle_of_consequence {s : State} {c : Instr} {rest : List Instr} (h : s.consequences = c :: rest) :
    s.idle = { s with pending := [c] } := by
  unfold State.idle
  rw [h]

theorem State.idle_of_due {s : State} {d : Instr} {rest : List Instr} (hc : s.consequences = []) (hd : s.due = d :: rest) :
    s.idle = { s with pending := [d], due := rest } := by
  unfold State.idle
  rw [hc, hd]

theorem State.idle_of_none {s : State} (hc : s.consequences = []) (hd : s.due = []) : s.idle =
    if s.atTick then { s with atTick := false } else { s.nextTick with due := s.nextTick.dueEvents } := by
  unfold State.idle
  rw [hc, hd]

/-- The count of the next base tick (R57). -/
theorem succ_mod_tickWrap {n : Nat} (h : n < 3840000) :
    (n + 1) % tickWrap = if n = 3839999 then 0 else n + 1 := by
  unfold tickWrap
  split <;> omega

end Sys2Proof.Machine

section

open Sys2Proof Sys2Proof.Machine

/-- Settles O1: the step's first branch. -/
theorem stepTakesFrontCommand : Obligations.StepTakesFrontCommand := by
  intro s c rest h
  unfold step
  rw [h]

/-- Settles O2: the branches of the idle step in their order. -/
theorem idleStepMovesTimeBase : Obligations.IdleStepMovesTimeBase := by
  intro s hp ht
  refine ⟨s.idle, by unfold step; rw [hp], fun hr => ?_, ?_⟩
  · obtain ⟨rest, hc⟩ := State.consequences_of_reservation hr
    exact State.idle_of_consequence hc
  · split
    · next hc => exact State.idle_of_consequence hc
    · next hc hd => exact State.idle_of_due hc hd
    · next hc hd =>
      rw [State.idle_of_none hc hd]
      split
      · rfl
      · simp only [State.nextTick, succ_mod_tickWrap ht]

/-- Settles O4: every record is at its default. -/
theorem resetValues : Obligations.ResetValues := by
  obtain ⟨helem, hblocked, htrans, hroute, hctx, hctxTimer, htimer, -⟩ := State.reset_reads
  exact ⟨rfl, rfl, rfl, rfl, rfl, fun _ => rfl, fun e => ⟨helem e, hblocked e, htrans e⟩, hroute,
    fun c => ⟨hctx c, hctxTimer c⟩, htimer, fun _ => rfl, fun p => by cases p <;> rfl, rfl, rfl, rfl, rfl, rfl, rfl, rfl,
    rfl, rfl, rfl, rfl, fun l => by cases l <;> rfl, rfl, rfl, rfl⟩

/-- Settles O5: the two invariants of the state after reset. -/
theorem resetMeetsInvariant : Obligations.ResetMeetsInvariant := ⟨State.reset_inv, State.reset_owned⟩

/-- Settles O44: the two schedules, each a test of the base tick. -/
theorem scheduledTelegrams : Obligations.ScheduledTelegrams := by
  refine ⟨fun fec s => ?_, fun l s => ?_⟩
  · have h : (s.atTick && s.refreshDue fec) = true ↔ s.atTick = true ∧ s.tablesValid = true ∧ s.fecConfigured fec = true ∧
        s.tick % 100 = s.fecPosition fec * 100 / s.fecList.length := by
      simp [State.refreshDue, State.refreshTurn, and_assoc]
    simp only [exec, execCommandRefresh, takeCommandRefresh, h]
    rfl
  · have h : (s.atTick && borderTurn l s.tick) = true ↔
        s.atTick = true ∧ s.tick % 50 = (match l with | .b1 => 0 | .b2 => 25) := by
      cases l <;> simp [borderTurn]
    simp only [exec, execBorderStatusSend, takeBorderStatusSend, h]
    rfl

/-- Settles O53: the head goes out, then the notice takes the freed place or is cleared. -/
theorem reportSendSendsHead : Obligations.ReportSendSendsHead := by
  intro s
  refine ⟨fun h => ?_, fun r rest hup hq => ?_⟩
  · simp only [exec, execReportSend, takeReportSend]
    split
    · next hup =>
      rw [h.resolve_left (fun hn => hn hup)]
    · rfl
  · have hbit : Latch.reportOverrun.bit = 5 := rfl
    simp only [exec, execReportSend, takeReportSend, hup, hq, if_true, State.noticeOverrun, State.send, hbit]
    by_cases hn : s.notice = true
    · by_cases hm : s.mask.getLsbD 5 = true
      · simp only [hn, hm, and_self, if_true]
        rfl
      · simp only [hn, hm, and_false, if_false, if_true, Bool.false_eq_true]
    · simp only [Bool.not_eq_true] at hn
      simp only [hn, Bool.false_eq_true, false_and, if_false]

end

/-! PROOFS. The rules of the shared operations: timer settings, rate ticks, the report queue, the conditions. -/

namespace Sys2Proof.Machine

/-! ### Timers -/

/-- The first number below a bound that meets a test. -/
theorem find?_range_eq_some {n k : Nat} {p : Nat → Bool} (hk : k < n) (hp : p k = true) (hn : ∀ j < k, p j = false) :
    (List.range n).find? p = some k := by
  rw [List.find?_range_eq_some]
  exact ⟨hp, List.mem_range.2 hk, fun j hj => by simp [hn j hj]⟩

theorem timerSetting_of_smallest {tms k : Nat} (hk : k < 8) (hfits : ticksNeeded tms k ≤ 256)
    (hleast : ∀ j < k, 256 < ticksNeeded tms j) :
    timerSetting tms = { rate := k, preload := 256 - ticksNeeded tms k, clamped := false } := by
  unfold timerSetting
  rw [find?_range_eq_some hk (by simpa using hfits) (fun j hj => by simpa using hleast j hj)]

theorem timerSetting_of_none {tms : Nat} (h : ∀ k < 8, 256 < ticksNeeded tms k) :
    timerSetting tms = { rate := 7, preload := 0, clamped := true } := by
  unfold timerSetting
  rw [List.find?_eq_none.2 (fun k hk => by simpa using h k (List.mem_range.1 hk))]

/-- A counted tick of a running timer. -/
theorem Timer.count1_of_counted {k tick : Nat} {t : Timer} (hr : t.rate = k) (he : t.expired = false)
    (hb : t.bornAt ≠ some tick) :
    t.count1 k tick = { t with count := t.count + 1, expired := decide (t.count = 255) } := by
  unfold Timer.count1
  rw [if_pos ⟨hr, he, hb⟩]

theorem Timer.count1_of_expired {k tick : Nat} {t : Timer} (he : t.expired = true) : t.count1 k tick = t := by
  unfold Timer.count1
  rw [if_neg (by simp [he])]

/-- An expired timer is counted no more. -/
theorem Timer.foldl_count1_of_expired (k : Nat) (ticks : List Nat) {t : Timer} (he : t.expired = true) :
    ticks.foldl (fun t tick => t.count1 k tick) t = t := by
  induction ticks with
  | nil => rfl
  | cons tick ticks ih => rw [List.foldl_cons, t.count1_of_expired he, ih]

/-- A running timer expires at the tick that steps its count from 255 to 0 (R60). -/
theorem Timer.expired_foldl_count1 (ticks : List Nat) (t : Timer) (he : t.expired = false)
    (hb : ∀ tick ∈ ticks, t.bornAt ≠ some tick) :
    (ticks.foldl (fun u tick => u.count1 t.rate tick) t).expired = decide (256 - t.count.toNat ≤ ticks.length) := by
  induction ticks generalizing t with
  | nil =>
    have := t.count.isLt
    simp only [List.foldl_nil, he, List.length_nil]
    exact (decide_eq_false (by omega)).symm
  | cons tick ticks ih =>
    rw [List.foldl_cons, Timer.count1_of_counted rfl he (hb tick (by simp))]
    by_cases hc : t.count = 255
    · rw [Timer.foldl_count1_of_expired _ _ (by simp [hc])]
      simp [hc]
    · have hlt : t.count.toNat < 255 := by
        have := t.count.isLt
        have hne : t.count.toNat ≠ 255 := fun h => hc (BitVec.eq_of_toNat_eq h)
        omega
      have hnext : (t.count + 1).toNat = t.count.toNat + 1 := by
        rw [BitVec.toNat_add]
        change (t.count.toNat + 1) % 256 = _
        omega
      have hih := ih { t with count := t.count + 1, expired := decide (t.count = 255) } (by simpa using hc)
        (fun u hu => hb u (by simp [hu]))
      refine hih.trans ?_
      simp only [hnext, List.length_cons, decide_eq_decide]
      omega

/-- A timer of a table that a rate tick counts. -/
theorem tblGet_map_option {α : Type} (f : α → α) (t : Tbl (Option α)) (i : Nat) :
    tblGet none (t.map (fun p => (p.1, p.2.map f))) i = (tblGet none t i).map f :=
  tblGet_map none (Option.map f) rfl t i

/-! ### The report queue -/

theorem setLatch_reportOverrun (ls : BitVec 8) : setLatch ls .reportOverrun = ls ||| 0x20 := rfl

theorem State.loseReport_eq (s : State) : s.loseReport = { s with
    latches := s.latches ||| 0x20
    lost := if s.lost < 65535 then s.lost + 1 else 65535
    notice := if s.mask.getLsbD 5 then true else s.notice } := by
  have hlost : min (s.lost + 1) 65535 = if s.lost < 65535 then s.lost + 1 else 65535 := by
    split <;> omega
  have hnotice : (s.notice || s.mask.getLsbD Latch.reportOverrun.bit)
      = if s.mask.getLsbD 5 then true else s.notice := by
    change (s.notice || s.mask.getLsbD 5) = _
    cases s.mask.getLsbD 5 <;> simp
  unfold State.loseReport
  rw [hlost, hnotice, setLatch_reportOverrun]

/-- A report that is no second Element Report of its element takes a new place. -/
theorem State.offer_of_new {s : State} {r : Report} (hm : maskAllows s.mask r = true)
    (hn : ∀ er, r = .element er → ∀ q ∈ s.queue, q.isElement er.elem = false) : s.offer r = s.placeReport r := by
  unfold State.offer
  rw [if_pos hm]
  cases r with
  | element er =>
    have hnone : s.queue.any (Report.isElement er.elem) = false := by
      simpa [List.any_eq_false] using hn er rfl
    simp only [hnone, Bool.false_eq_true, if_false]
  | _ => rfl

/-! ### Conditions -/

theorem Cond.mem_all (c : Cond) : c ∈ Cond.all := by cases c <;> decide

theorem Cond.num_lt (c : Cond) : c.num < 18 := by cases c <;> decide

theorem Cond.num_injective {c d : Cond} (h : c.num = d.num) : c = d := by
  cases c <;> cases d <;> first | rfl | (exact absurd h (by decide))

/-- A bit of a set of conditions built up one by one. -/
theorem getLsbD_foldl_conds (f : Cond → Bool) (cs : List Cond) (acc : BitVec 24) {n : Nat} (hn : n < 24) :
    (cs.foldl (fun acc c => if f c then acc ||| (1#24 <<< c.num) else acc) acc).getLsbD n
      = (acc.getLsbD n || cs.any (fun c => f c && decide (c.num = n))) := by
  induction cs generalizing acc with
  | nil => simp
  | cons c cs ih =>
    rw [List.foldl_cons, ih, List.any_cons]
    have hbit : (1#24 <<< c.num).getLsbD n = decide (c.num = n) := by
      rw [BitVec.getLsbD_shiftLeft, BitVec.getLsbD_one]
      by_cases h : c.num = n
      · simp [h, hn]
      · simp only [hn, decide_true, Bool.true_and, h, decide_false]
        by_cases hlt : n < c.num
        · simp [hlt]
        · have : n - c.num ≠ 0 := by omega
          simp [this]
    cases hc : f c with
    | true => simp [hbit, Bool.or_assoc]
    | false => simp

theorem State.getLsbD_condSet (s : State) (e n : Nat) (hn : n < 24) :
    (s.condSet e).getLsbD n = Cond.all.any (fun c => s.holds e c && decide (c.num = n)) := by
  unfold State.condSet
  rw [getLsbD_foldl_conds _ _ _ hn]
  simp

/-- The conditions a carried set names are those whose bit is set. -/
theorem mem_namedConds (set : BitVec 24) (c : Cond) : c ∈ namedConds set ↔ set.getLsbD c.num = true := by
  simp [namedConds, Cond.mem_all]

theorem State.holds_of_no_kind {s : State} {e : Nat} (h : s.kind e = none) (c : Cond) : s.holds e c = false := by
  unfold State.holds
  rw [h]

/-- A BORDER element in control: heard over a link that is UP, with a known neighbour side (R5, R30). -/
theorem State.inControl_border {s : State} {e : Nat} (h : s.kind e = some .border) :
    s.inControl e = true ↔ (s.elem e).heard = true ∧ (∃ l, s.elemLink e = some l ∧ (s.link l.port).state = .up) ∧
      (s.elem e).nbr ≠ .unknown := by
  simp only [State.inControl, State.supervised, h, State.linkHolds, Bool.and_eq_true, bne_iff_ne, ne_eq]
  cases s.elemLink e <;> simp [and_assoc]

/-- A POINT, SIGNAL or SECTION in control: supervised, with a known reported state (R5, R25). -/
theorem State.inControl_field {s : State} {e : Nat} {k : Kind} (h : s.kind e = some k) (hk : k ≠ .border) :
    s.inControl e = true ↔ (s.elem e).deadline ≠ none ∧ (s.elem e).reported ≠ .unknown := by
  cases k <;> simp_all [State.inControl, State.supervised, Option.isSome_iff_ne_none]

end Sys2Proof.Machine

section

open Sys2Proof Sys2Proof.Machine

/-- Settles O54: the two branches of the search for a rate. -/
theorem timerSettingIsSmallestRate : Obligations.TimerSettingIsSmallestRate :=
  fun _ => ⟨fun _ hk hfits hleast => timerSetting_of_smallest hk hfits hleast, fun h => timerSetting_of_none h⟩

/-- Settles O55: the tick counts each timer table by a map, and the count of a timer rises to its expiry. -/
theorem rateTicksCountToExpiry : Obligations.RateTicksCountToExpiry := by
  refine ⟨fun k s => ⟨fun h => ?_, fun ha hk ht => ?_⟩, fun s x ticks hx hticks => ?_⟩
  · simp only [exec, execRateTick, takeRateTick, if_neg h]
  · refine ⟨s.rateTick k, by simp only [exec, execRateTick, takeRateTick, ha, hk, ht, and_self, if_true],
      fun i => ?_, fun c => ?_, rfl, rfl⟩
    · exact tblGet_map_option (fun h => { h with timer := h.timer.count1 k s.tick }) s.timers i
    · exact tblGet_map_option (Timer.count1 k s.tick) s.ctxTimers c
  · have hcount : (s.startTimer x).count.toNat = x.preload := by
      simp only [State.startTimer, BitVec.toNat_ofNat]
      omega
    have hborn : ∀ tick ∈ ticks, (s.startTimer x).bornAt ≠ some tick := fun tick ht h => by
      simp only [State.startTimer] at h
      split at h
      · exact hticks tick ht (Option.some.inj h).symm
      · cases h
    have h := Timer.expired_foldl_count1 ticks (s.startTimer x) rfl hborn
    rw [hcount] at h
    exact h

/-- Settles O56: the branches of R174. -/
theorem reportQueueTakesOrLoses : Obligations.ReportQueueTakesOrLoses := by
  intro s r
  refine ⟨fun hm => ?_, fun er hm hr hq => ?_, fun hm hn => ?_⟩
  · unfold State.offer
    rw [if_neg (by simp [hm])]
  · subst hr
    have hany : s.queue.any (Report.isElement er.elem) = true := List.any_eq_true.2 hq
    unfold State.offer
    simp only [hm, hany, if_true]
  · rw [State.offer_of_new hm hn, State.placeReport, State.loseReport_eq]

/-- Settles O57: each condition by the kind of its element, and the sets bit by bit. -/
theorem conditionSetsAndTests : Obligations.ConditionSetsAndTests := by
  refine ⟨fun s e => ⟨fun h c => State.holds_of_no_kind h c, fun k h => ?_⟩, fun s e set => ⟨fun c => ?_, fun n hn => ?_, ?_⟩⟩
  · have hcontrol : s.inControl e = true ↔ (k = .border ∧ (s.elem e).heard = true ∧
        (∃ l, s.elemLink e = some l ∧ (s.link l.port).state = .up) ∧ (s.elem e).nbr ≠ .unknown) ∨
        k ≠ .border ∧ (s.elem e).deadline ≠ none ∧ (s.elem e).reported ≠ .unknown := by
      by_cases hk : k = .border
      · subst hk
        simp [State.inControl_border h]
      · simp [State.inControl_field h hk, hk]
    simp only [State.holds, h]
    cases k <;> simp_all [Option.isSome_iff_ne_none, and_assoc]
  · have hn := c.num_lt
    rw [State.getLsbD_condSet s e _ (by omega), Bool.eq_iff_iff, List.any_eq_true]
    constructor
    · rintro ⟨d, -, hd⟩
      simp only [Bool.and_eq_true, decide_eq_true_eq] at hd
      exact Cond.num_injective hd.2 ▸ hd.1
    · exact fun hc => ⟨c, c.mem_all, by simp [hc]⟩
  · by_cases hlt : n < 24
    · rw [State.getLsbD_condSet s e n hlt, List.any_eq_false]
      intro c _
      have := c.num_lt
      have hne : c.num ≠ n := by omega
      simp [hne]
    · exact BitVec.getLsbD_of_ge _ _ (by omega)
  · simp only [State.passesTest, List.all_eq_true, List.any_eq_true, mem_namedConds, Bool.not_eq_true', and_self]

end

/-! PROOFS. From telegrams to bytes and back: the check values, the common frame, and the decoder on what the encoder
gives. -/

namespace Sys2Proof.Machine

theorem half_hi_lo (h : Half) : half (hiByte h) (loByte h) = h := by
  unfold half hiByte loByte
  exact BitVec.extractLsb'_append_extractLsb'_eq_extractLsb' rfl |>.trans (by simp)

/-- The length field of a frame whose payload fits it. -/
theorem toNat_lengthField {n : Nat} (h : n < 65536) : (BitVec.ofNat 16 n).toNat = n := by
  rw [BitVec.toNat_ofNat]
  exact Nat.mod_eq_of_lt h

/-- A frame whose payload fits the length field is received as it was sent (R189). -/
theorem parseFrame_bytes (f : Frame) (h : f.payload.length < 65536) : parseFrame f.bytes = some f := by
  obtain ⟨cls, kind, tag, payload⟩ := f
  have hlen := toNat_lengthField h
  simp only at hlen
  have hcrc : (halfBytes (crc16 (Frame.body ⟨cls, kind, tag, payload⟩))).length = 2 := rfl
  have hbytes : Frame.bytes ⟨cls, kind, tag, payload⟩ = cls :: kind :: hiByte tag :: loByte tag ::
      hiByte (BitVec.ofNat 16 payload.length) :: loByte (BitVec.ofNat 16 payload.length) ::
        (payload ++ halfBytes (crc16 (Frame.body ⟨cls, kind, tag, payload⟩))) := by
    simp [Frame.bytes, Frame.body, halfBytes]
  rw [hbytes, parseFrame]
  simp only [half_hi_lo, hlen, List.length_append, hcrc, if_true, List.take_left', List.drop_left']
  exact if_pos rfl

/-! ### Requests -/

theorem reqOfCodes_codes (q : Req) : reqOfCodes q.cls.code q.code = some q := by cases q <;> decide

theorem decodeCPort_requestBytes (q : Req) (t : Half) (p : List Byte) (h : p.length < 65536) :
    decodeCPort (requestBytes q t p) = requestInstr q t p := by
  unfold decodeCPort requestBytes
  rw [parseFrame_bytes _ h]
  simp only [reqOfCodes_codes]

/-! ### Border telegrams -/

theorem decodeBPort_borderBytes (l : Link) (k : Byte) (p : List Byte) (i : Instr) (h : p.length < 65536)
    (hi : borderInstr l k p = some i) : decodeBPort l (borderBytes k p) = i := by
  unfold decodeBPort borderBytes
  rw [parseFrame_bytes _ h]
  simp only [if_true, hi, Option.getD_some]

theorem decodeTelegram_port (l : Link) (bytes : List Byte) : decodeTelegram l.port bytes = decodeBPort l bytes := by
  cases l <;> rfl

/-- A request that the encoder spells on the C-port is decoded to itself. -/
theorem decode_request {port : Port} {bytes : List Byte} (q : Req) (t : Half) (p : List Byte)
    (hw : payloadFits p = true) (he : some (Port.c, requestBytes q t p) = some (port, bytes)) :
    decodeTelegram port bytes = requestInstr q t p := by
  cases he
  exact decodeCPort_requestBytes q t p (by simpa [payloadFits] using hw)

/-- A border telegram that the encoder spells on a B-link is decoded to itself. -/
theorem decode_border {port : Port} {bytes : List Byte} {i : Instr} (l : Link) (k : Byte) (p : List Byte)
    (hl : p.length < 65536) (hi : borderInstr l k p = some i)
    (he : some (l.port, borderBytes k p) = some (port, bytes)) : decodeTelegram port bytes = i := by
  cases he
  rw [decodeTelegram_port]
  exact decodeBPort_borderBytes l k p i hl hi

end Sys2Proof.Machine

section

open Sys2Proof Sys2Proof.Machine Sys2Proof.Laws.Telegram

/-- Settles O59: the check values by evaluation, the frame by its layout. -/
theorem framesAndChecks : Obligations.FramesAndChecks := 
  ⟨⟨by decide +kernel, by decide +kernel⟩, parseFrame_bytes⟩

/-- Settles O60: each command by the form of its telegram. -/
theorem decodeOfEncodedTelegram : Obligations.DecodeOfEncodedTelegram := by
  intro i port bytes hw he
  cases i with
  | setRoute t p => exact decode_request .setRoute t p hw he
  | cancelRoute t p => exact decode_request .cancelRoute t p hw he
  | reSignal t p => exact decode_request .reSignal t p hw he
  | movePoint t p => exact decode_request .movePoint t p hw he
  | blockElement t p => exact decode_request .blockElement t p hw he
  | unblockElement t p => exact decode_request .unblockElement t p hw he
  | auxPrepare t p => exact decode_request .auxPrepare t p hw he
  | auxConfirm t p => exact decode_request .auxConfirm t p hw he
  | readElement t p => exact decode_request .readElement t p hw he
  | readRoute t p => exact decode_request .readRoute t p hw he
  | readIndications t p => exact decode_request .readIndications t p hw he
  | acknowledgeIndications t p => exact decode_request .acknowledgeIndications t p hw he
  | setReportMask t p => exact decode_request .setReportMask t p hw he
  | loadTableSegment t p => exact decode_request .loadTableSegment t p hw he
  | verifyTables t p => exact decode_request .verifyTables t p hw he
  | enterOperation t p => exact decode_request .enterOperation t p hw he
  | leaveOperation t p => exact decode_request .leaveOperation t p hw he
  | restart t p => exact decode_request .restart t p hw he
  | unknownKind bs =>
    cases he
    exact eq_of_beq hw
  | statusTelegram bs =>
    cases he
    rfl
  | invalidBorderTelegram l bs =>
    cases he
    rw [decodeTelegram_port]
    exact eq_of_beq hw
  | borderStatus l p =>
    have hf : borderStatusFits p = true := hw
    exact decode_border l 0x10 p (status_length hf) (by simp [borderInstr, hf]) he
  | offer l p =>
    have hf : borderTransactionFits p = true := hw
    exact decode_border l 0x11 p (transaction_length hf) (by simp [borderInstr, hf]) he
  | accept l p =>
    have hf : borderTransactionFits p = true := hw
    exact decode_border l 0x12 p (transaction_length hf) (by simp [borderInstr, hf]) he
  | decline l p =>
    have hf : borderTransactionFits p = true := hw
    exact decode_border l 0x13 p (transaction_length hf) (by simp [borderInstr, hf]) he
  | withdraw l p =>
    have hf : borderTransactionFits p = true := hw
    exact decode_border l 0x14 p (transaction_length hf) (by simp [borderInstr, hf]) he
  | handback l p =>
    have hf : borderTransactionFits p = true := hw
    exact decode_border l 0x15 p (transaction_length hf) (by simp [borderInstr, hf]) he
  | powerOnReset | restartReset | reservation | supervisionLoss | throwTimeout | linkTimerExpiry | releaseTimerExpiry
  | contextTimerExpiry | auxWindowExpiry | startupEnd | backgroundCheck | borderStatusSend | commandRefresh | reportSend
  | rateTick => cases he

end

/-! PROOF SUPPORT. A C-port request, once for all kinds: what its owner finds once the link watch has counted it, the
Reply alone, and the refusals that come before the owner. -/

namespace Sys2Proof.Machine

/-! ### What the owner of a C-port telegram finds -/

@[simp] theorem State.takenC_lookups (s : State) :
    (s.taken .c).lookup = s.lookup ∧ (s.taken .c).payloadRoute = s.payloadRoute ∧
    (s.taken .c).payloadElem = s.payloadElem ∧ (s.taken .c).payloadAux = s.payloadAux := ⟨rfl, rfl, rfl, rfl⟩

@[simp] theorem State.takenC_reads (s : State) :
    (s.taken .c).kind = s.kind ∧ (s.taken .c).erow = s.erow ∧ (s.taken .c).isBlocked = s.isBlocked ∧
    (s.taken .c).timerOf = s.timerOf ∧ (s.taken .c).auxTarget = s.auxTarget ∧ (s.taken .c).ctxOf = s.ctxOf ∧
    (s.taken .c).isEntry = s.isEntry ∧ (s.taken .c).elemLink = s.elemLink ∧
    (s.taken .c).deadlineAfter = s.deadlineAfter ∧ (s.taken .c).requests = s.requests ∧
    (s.taken .c).auxPending = s.auxPending ∧ (s.taken .c).linkB1 = s.linkB1 ∧ (s.taken .c).linkB2 = s.linkB2 := by
  and_intros <;> rfl

/-- A telegram on the C-port touches no condition of an element. -/
@[simp] theorem State.takenC_holds (s : State) : (s.taken .c).holds = s.holds := by
  funext e c
  exact State.holds_congr (s := s) (t := s.taken .c) rfl rfl e
    (State.handView_congr (s := s) (t := s.taken .c) rfl rfl rfl rfl rfl rfl e rfl) c

@[simp] theorem State.takenC_supervised (s : State) : (s.taken .c).supervised = s.supervised := by
  funext e
  exact congrArg HandView.supervised
    (State.handView_congr (s := s) (t := s.taken .c) rfl rfl rfl rfl rfl rfl e rfl).symm

@[simp] theorem State.replying_others (s : State) (q : Req) (tag : Half) (code : ReplyCode) (data : ReplyData) :
    (s.replying q tag code data).store = s.store ∧ (s.replying q tag code data).tablesValid = s.tablesValid ∧
    (s.replying q tag code data).elems = s.elems ∧ (s.replying q tag code data).blocked = s.blocked ∧
    (s.replying q tag code data).linkB1 = s.linkB1 ∧ (s.replying q tag code data).linkB2 = s.linkB2 ∧
    (s.replying q tag code data).trans = s.trans ∧ (s.replying q tag code data).routes = s.routes ∧
    (s.replying q tag code data).mask = s.mask := by
  and_intros <;> rfl

/-! ### The event of a request -/

/-- The event of a C-port request once the link watch has counted it. -/
def Ev.asked (s : State) : Ev := ⟨s, s.taken .c, s.linkOffers .c, []⟩

@[simp] theorem Ev.asked_fields (s : State) : (Ev.asked s).s = s.taken .c ∧ (Ev.asked s).before = s ∧
    (Ev.asked s).offers = s.linkOffers .c ∧ (Ev.asked s).reached = [] := ⟨rfl, rfl, rfl, rfl⟩

/-- A request that is answered and changes nothing else (R166). -/
theorem Ev.asked_reply_settle (s : State) (q : Req) (tag : Half) (code : ReplyCode) (data : ReplyData) :
    ((Ev.asked s).reply q tag code data).settle = s.answered q tag code data :=
  settle_of_same s _ _ rfl rfl rfl rfl rfl rfl (fun _ => rfl) (fun _ => Iff.rfl) rfl

theorem Ev.asked_answer_settle (s : State) (q : Req) (tag : Half) (code : ReplyCode) :
    ((Ev.asked s).answer q tag code).settle = s.answered q tag code .none := Ev.asked_reply_settle ..

theorem takeRequest_eq (q : Req) (tag : Half) (p : List Byte) (body : Ev → Ev) (s : State) :
    takeRequest q tag p body s = ((Ev.asked s).judge q tag p body).settle := by
  unfold takeRequest
  rw [Ev.validTelegram_eq s .c (.inl rfl)]
  rfl

theorem takeRequest_of_badLength {q : Req} {p : List Byte} (tag : Half) (body : Ev → Ev) (s : State)
    (h : q.lengthFits p = false) : takeRequest q tag p body s = s.answered q tag .badLength .none := by
  rw [takeRequest_eq, ← Ev.asked_answer_settle]
  simp only [Ev.judge, h, Bool.false_eq_true, if_false]

theorem takeRequest_of_modeAnswer {q : Req} {p : List Byte} {s : State} {code : ReplyCode} (tag : Half)
    (body : Ev → Ev) (hl : q.lengthFits p = true) (hm : modeAnswer s.mode q = some code) :
    takeRequest q tag p body s = s.answered q tag code .none := by
  rw [takeRequest_eq, ← Ev.asked_answer_settle]
  simp only [Ev.judge, hl, if_true, Ev.asked_fields, State.taken_others, hm]

theorem takeRequest_of_outOfRange {q : Req} {p : List Byte} {s : State} (tag : Half) (body : Ev → Ev)
    (hl : q.lengthFits p = true) (hm : modeAnswer s.mode q = none) (hr : q.inRange p = false) :
    takeRequest q tag p body s = s.answered q tag .outOfRange .none := by
  rw [takeRequest_eq, ← Ev.asked_answer_settle]
  simp only [Ev.judge, hl, if_true, Ev.asked_fields, State.taken_others, hm, hr, Bool.false_eq_true, if_false]

theorem takeRequest_asked {q : Req} {p : List Byte} {s : State} (tag : Half) (body : Ev → Ev)
    (h : s.admits q p = true) : takeRequest q tag p body s = (body (Ev.asked s)).settle :=
  takeRequest_of_admits q tag p body s h

/-- Every request is judged before its owner acts. -/
theorem exec_requestInstr (q : Req) (tag : Half) (p : List Byte) :
    ∃ body, ∀ s, exec (requestInstr q tag p) s = .next (takeRequest q tag p body s) := by
  cases q <;> exact ⟨_, fun _ => rfl⟩

/-- A request whose lookup fails is answered with the lookup's code and changes nothing else (R23, R46). -/
theorem takeRequest_of_notFound {α : Type} {q : Req} {p : List Byte} {s : State} {code : ReplyCode} (tag : Half)
    (look : State → Except ReplyCode α) (f : Ev → α → Ev) (h : s.admits q p = true)
    (hx : look (s.taken .c) = .error code) :
    takeRequest q tag p (fun ev => ev.withFound q tag (look ev.s) (f ev)) s = s.answered q tag code .none := by
  rw [takeRequest_asked tag _ h, ← Ev.asked_answer_settle, Ev.asked_fields .. |>.1, hx]
  rfl

/-- A request whose lookup succeeds goes on with what was found. -/
theorem takeRequest_of_found {α : Type} {q : Req} {p : List Byte} {s : State} {a : α} (tag : Half)
    (look : State → Except ReplyCode α) (f : Ev → α → Ev) (h : s.admits q p = true)
    (hx : look (s.taken .c) = .ok a) :
    takeRequest q tag p (fun ev => ev.withFound q tag (look ev.s) (f ev)) s = (f (Ev.asked s) a).settle := by
  rw [takeRequest_asked tag _ h, Ev.asked_fields .. |>.1, hx]
  rfl

/-- The requests for one element look its designation up. -/
theorem exec_elemRequest {q : Req} (tag : Half) (p : List Byte)
    (hq : q = .movePoint ∨ q = .blockElement ∨ q = .unblockElement ∨ q = .readElement) :
    ∃ f : Ev → Nat → Ev, ∀ s, exec (requestInstr q tag p) s =
      .next (takeRequest q tag p (fun ev => ev.withFound q tag (ev.s.payloadElem p) (f ev)) s) := by
  rcases hq with rfl | rfl | rfl | rfl <;> exact ⟨_, fun _ => rfl⟩

/-- The requests for one route look its key up. -/
theorem exec_routeRequest {q : Req} (tag : Half) (p : List Byte)
    (hq : q = .setRoute ∨ q = .cancelRoute ∨ q = .reSignal ∨ q = .readRoute) :
    ∃ f : Ev → Nat → Ev, ∀ s, exec (requestInstr q tag p) s =
      .next (takeRequest q tag p (fun ev => ev.withFound q tag (ev.s.payloadRoute p) (f ev)) s) := by
  rcases hq with rfl | rfl | rfl | rfl <;> exact ⟨_, fun _ => rfl⟩

/-- What an Acknowledge Indications leaves alone (R172). -/
@[simp] theorem State.acknowledge_others (s : State) (set : BitVec 8) :
    (s.acknowledge set).store = s.store ∧ (s.acknowledge set).tablesValid = s.tablesValid ∧
    (s.acknowledge set).elems = s.elems ∧ (s.acknowledge set).blocked = s.blocked ∧
    (s.acknowledge set).linkB1 = s.linkB1 ∧ (s.acknowledge set).linkB2 = s.linkB2 ∧
    (s.acknowledge set).trans = s.trans ∧ (s.acknowledge set).routes = s.routes ∧
    (s.acknowledge set).mask = s.mask := by
  and_intros <;> rfl

/-! ### Lookups -/

theorem State.lookup_of_illFormed {s : State} {d : Half} (h : wellFormedDesignation d = false) :
    s.lookup d = .error .badDesignation := by
  unfold State.lookup
  simp only [h, Bool.false_eq_true, if_false]

theorem lookupMap_eq_none {m : List (Half × Nat)} {d : Half} (h : ∀ e, (d, e) ∉ m) : lookupMap m d = none := by
  induction m with
  | nil => rfl
  | cons x m ih =>
    obtain ⟨d', j⟩ := x
    have hne : d ≠ d' := fun hd => h j (by simp [hd])
    rw [lookupMap, if_neg hne]
    exact ih (fun e he => h e (List.mem_cons_of_mem _ he))

theorem State.lookup_of_unlisted {s : State} {d : Half} (h : wellFormedDesignation d = true)
    (hn : ∀ e, (d, e) ∉ s.dmap) : s.lookup d = .error .unknownElement := by
  unfold State.lookup
  simp only [h, if_true, lookupMap_eq_none hn]

/-- The lookup of a route key: the start, the destination, the Route Table (R46). -/
theorem State.lookupRoute_of_noStart {s : State} {a b : Half} {v : Nat} {code : ReplyCode}
    (h : s.lookup a = .error code) : s.lookupRoute a b v = .error code := by
  unfold State.lookupRoute
  simp only [h]

theorem State.lookupRoute_of_noDest {s : State} {a b : Half} {v i : Nat} {code : ReplyCode}
    (ha : s.lookup a = .ok i) (hb : s.lookup b = .error code) : s.lookupRoute a b v = .error code := by
  unfold State.lookupRoute
  simp only [ha, hb]

theorem State.lookupRoute_of_noRoute {s : State} {a b : Half} {v i j : Nat} (ha : s.lookup a = .ok i)
    (hb : s.lookup b = .ok j)
    (h : ∀ r < s.routeCount, ¬ ((s.rrow r).start = i ∧ (s.rrow r).dest = j ∧ (s.rrow r).variant = v)) :
    s.lookupRoute a b v = .error .unknownRoute := by
  have hf : s.findRoute i j v = none := by
    refine List.find?_eq_none.2 (fun r hr => ?_)
    have hne := h r (List.mem_range.1 hr)
    simpa [and_assoc] using hne
  unfold State.lookupRoute
  simp only [ha, hb, hf]

end Sys2Proof.Machine

/-! PROOFS. The judgement of requests, the lookups and the STATUS requests. -/

section

open Sys2Proof Sys2Proof.Machine

/-- Settles O9: the three refusals of R166 before the owner, for every kind alike. -/
theorem requestsAreJudgedInOrder : Obligations.RequestsAreJudgedInOrder := by
  refine ⟨fun q tag p s hl => ?_, fun q tag p s hl => ?_, fun q tag p s hl hm hr => ?_⟩
  · obtain ⟨body, hb⟩ := exec_requestInstr q tag p
    rw [hb, takeRequest_of_badLength tag body s hl]
  · obtain ⟨body, hb⟩ := exec_requestInstr q tag p
    have refused {code : ReplyCode} (hm : modeAnswer s.mode q = some code) :
        exec (requestInstr q tag p) s = .next (s.answered q tag code .none) := by
      rw [hb, takeRequest_of_modeAnswer tag body hl hm]
    refine ⟨fun ⟨hm, hc⟩ => refused ?_, fun ⟨hm, hc⟩ => refused ?_, fun ⟨hm, hc⟩ => refused ?_,
      fun ⟨hm, hc⟩ => refused ?_⟩
    · simp [modeAnswer, hm, hc]
    · rcases hm with hm | hm <;> simp [modeAnswer, hm, hc]
    · simp [modeAnswer, hm, hc, Req.cls]
    · rcases hm with hm | ⟨hm, hq⟩ | ⟨hm, hq⟩
      · simp [modeAnswer, hm, hc]
      · simp [modeAnswer, hm, hc, hq]
      · simp [modeAnswer, hm, hc, hq]
  · obtain ⟨body, hb⟩ := exec_requestInstr q tag p
    rw [hb, takeRequest_of_outOfRange tag body hl hm hr]

/-- Settles O10: a failed lookup is the answer. -/
theorem lookupsAreAnswered : Obligations.LookupsAreAnswered := by
  refine ⟨fun q tag p s hq ha => ?_, fun q tag p s hq ha => ?_⟩
  · obtain ⟨f, hf⟩ := exec_elemRequest tag p hq
    have answered {code : ReplyCode} (hx : s.lookup (halfAt p 0) = .error code) :
        exec (requestInstr q tag p) s = .next (s.answered q tag code .none) := by
      rw [hf, takeRequest_of_notFound tag (fun s => s.payloadElem p) f ha (by simpa [State.payloadElem] using hx)]
    exact ⟨fun h => answered (State.lookup_of_illFormed h), fun h hn => answered (State.lookup_of_unlisted h hn)⟩
  · obtain ⟨f, hf⟩ := exec_routeRequest tag p hq
    have answered {code : ReplyCode} (hx : s.payloadRoute p = .error code) :
        exec (requestInstr q tag p) s = .next (s.answered q tag code .none) := by
      rw [hf, takeRequest_of_notFound tag (fun s => s.payloadRoute p) f ha (by simpa using hx)]
    exact ⟨fun code h => answered (State.lookupRoute_of_noStart h),
      fun a code h h' => answered (State.lookupRoute_of_noDest h h'),
      fun a b h h' hn => answered (State.lookupRoute_of_noRoute h h' hn)⟩

/-- A field that only some kinds carry, as a choice. -/
theorem onKinds_eq {α : Type} (ks : List Kind) (k : Kind) (x : α) : onKinds ks k x = if k ∈ ks then some x else none := rfl

/-- Settles O11: the owner answers with the record and changes nothing. -/
theorem readsReturnRecords : Obligations.ReadsReturnRecords := by
  refine ⟨fun tag p s e k ha hl hk => ?_, fun tag p s r ha hr => ?_⟩
  · have hbody : (Ev.asked s).readElement tag e
        = (Ev.asked s).reply .readElement tag .accepted (.element (s.readElement e k)) := by
      have hread : (s.taken .c).readElement e k = s.readElement e k := by
        have hs := congrFun (State.takenC_supervised s) e
        have hc : (s.taken .c).condSet e = s.condSet e := by simp only [State.condSet, State.takenC_holds]
        unfold State.readElement
        rw [hs, hc]
        rfl
      unfold Ev.readElement
      simp only [Ev.asked_fields, State.takenC_reads, hk, hread]
    simp only [exec, execReadElement, takeReadElement]
    rw [takeRequest_of_found tag (fun s => s.payloadElem p) (Ev.readElement tag) ha hl, hbody, Ev.asked_reply_settle]
    simp only [State.readElement, onKinds_eq, List.mem_cons, List.not_mem_nil, or_false]
  · simp only [exec, execReadRoute, takeReadRoute]
    rw [takeRequest_of_found tag (fun s => s.payloadRoute p)
      (fun ev r => ev.reply .readRoute tag .accepted (.route (ev.s.readRoute r))) ha hr, Ev.asked_reply_settle]
    rfl

/-- Settles O12: the owner answers with the indications as they stand. -/
theorem readIndicationsReturnsState : Obligations.ReadIndicationsReturnsState := by
  intro tag p s ha
  simp only [exec, execReadIndications, takeReadIndications]
  rw [takeRequest_asked tag _ ha, Ev.asked_reply_settle]
  rfl

/-- Settles O13: the two writes touch nothing that is handed on; the mask of the event's reports is the old one. -/
theorem indicationWrites : Obligations.IndicationWrites := by
  refine ⟨fun tag p s ha => ?_, fun tag p s ha => ?_⟩
  · simp only [exec, execAcknowledgeIndications, takeAcknowledgeIndications]
    rw [takeRequest_asked tag _ ha]
    have hnotice : (s.notice && !(byteAt p 1).getLsbD 5) = if (byteAt p 1).getLsbD 5 then false else s.notice := by
      cases (byteAt p 1).getLsbD 5 <;> simp
    refine congrArg Host.Outcome.next ((settle_of_same s
      (((s.taken .c).replying .acknowledgeIndications tag .accepted .none).acknowledge (byteAt p 1)) (s.linkOffers .c)
      (by simp) (by simp) (by simp) (by simp) (by simp) (by simp) (by simp [State.transOf]) (by simp [State.route])
      (by simp)).trans (congrArg (State.reporting · _) ?_))
    rw [← hnotice]
    rfl
  · simp only [exec, execSetReportMask, takeSetReportMask]
    rw [takeRequest_asked tag _ ha]
    have hq : Ev.Quiet (((Ev.asked s).answer .setReportMask tag .accepted).on
        (fun s => { s with mask := (halfAt p 0).extractLsb' 0 11 })) := by
      apply Ev.quiet_of <;> simp [Ev.answer, Ev.reply, State.transOf, State.route]
    rw [hq.settle, BitVec.setWidth_eq_extractLsb' (by decide)]
    rfl

end

/-! PROOF SUPPORT. Requests that join or leave the Request Queue, and the Decline to a neighbour: each as the event that
it makes. -/

namespace Sys2Proof.Machine

/-- The report queue does not tell two equal states apart. -/
theorem State.reporting_congr {u v : State} {os ps : List Offer} (h : u = v) (ho : os = ps) :
    u.reporting os = v.reporting ps := by rw [h, ho]

/-- A Route Report on the fields of a record (R74). -/
def State.routeOffer (s : State) (r : Nat) (w : RouteRec) (x : RouteEvent) : Offer :=
  ⟨.route, .route { route := r, key := s.routeKeyOf r, event := x, origin := w.origin, deferred := w.deferred,
                    clamped := w.clamped }⟩

/-- The request of a route joins the tail of the queue (R75, R77). -/
def State.queueing (s : State) (r : Nat) (o : Origin) : State :=
  ({ s with requests := s.requests ++ [⟨r, o⟩] } : State).setRoute r { s.route r with state := .queued, origin := some o }

theorem Ev.queueRoute_eq (ev : Ev) (r : Nat) (o : Origin) :
    ev.queueRoute r o = ⟨ev.before, ev.s.queueing r o,
      ev.offers ++ [ev.s.routeOffer r { ev.s.route r with origin := some o } .queued], ev.reached⟩ := by
  have h : (ev.s.queueing r o).route r = { ev.s.route r with state := .queued, origin := some o } := by
    simp [State.queueing]
  have hq : ev.queueRoute r o = ⟨ev.before, ev.s.queueing r o,
      ev.offers ++ [(ev.s.queueing r o).routeOffer r ((ev.s.queueing r o).route r) .queued], ev.reached⟩ := rfl
  rw [hq, h]
  rfl

/-- The request of a route leaves its place, and the route becomes FREE (R92). -/
def State.unqueueing (s : State) (r : Nat) : State :=
  ({ s with requests := s.requests.filter (fun q => q.route != r) } : State).setRoute r {}

theorem Ev.cancelQueued_eq (ev : Ev) (r : Nat) (reason : Reason) :
    ev.cancelQueued r reason false = ⟨ev.before, ev.s.unqueueing r,
      ev.offers ++ [ev.s.routeOffer r (ev.s.route r) (.cancelled reason)], ev.reached⟩ := rfl

theorem Ev.cancelQueued_declining (ev : Ev) (r : Nat) (reason : Reason) :
    ev.cancelQueued r reason true =
      (ev.cancelQueued r reason false).declineOrigin r (ev.s.route r).origin reason := rfl

/-- The Decline that a neighbour's route of the given start element is answered with (R82, R89, R92). -/
def declineTx (point reference : Byte) (x : Reason) : BorderTx := plainTx .decline point reference x.code

theorem Ev.sendDecline_eq (ev : Ev) (l : Link) (e : Option Nat) (point reference : Byte) (x : Reason) :
    ev.sendDecline l e point reference x = ⟨ev.before, ev.s.send l.port (.transaction (declineTx point reference x)),
      ev.offers ++ [⟨.border l, .border (ev.s.unchangedBorder l e (declineTx point reference x))⟩], ev.reached⟩ := by
  cases e <;> rfl

/-- Only a neighbour is answered at the end of its request. -/
theorem Ev.declineOrigin_neighbour (ev : Ev) (r : Nat) (l : Link) (ref : Byte) (x : Reason) :
    ev.declineOrigin r (some (.neighbour l ref)) x =
      ev.sendDecline l (some (ev.s.rrow r).start) (ev.s.pointByte (ev.s.rrow r).start) ref x := rfl

theorem Ev.declineOrigin_control (ev : Ev) (r : Nat) (tag : Half) (x : Reason) :
    ev.declineOrigin r (some (.control tag)) x = ev := rfl

theorem Ev.declineOrigin_none (ev : Ev) (r : Nat) (x : Reason) : ev.declineOrigin r none x = ev := rfl

/-! ### Events that hand nothing on -/

/-- Two states that hand on the same of every element and have the same routes CLEARED, under one mask. -/
structure State.Alike (s u : State) : Prop where
  store : u.store = s.store
  tables : u.tablesValid = s.tablesValid
  elems : u.elems = s.elems
  blocked : u.blocked = s.blocked
  linkB1 : u.linkB1.state = s.linkB1.state
  linkB2 : u.linkB2.state = s.linkB2.state
  transState : ∀ e, (u.transOf e).state = (s.transOf e).state
  cleared : ∀ r, (u.route r).state = .cleared ↔ (s.route r).state = .cleared
  mask : u.mask = s.mask

theorem State.Alike.refl (s : State) : s.Alike s := ⟨rfl, rfl, rfl, rfl, rfl, rfl, fun _ => rfl, fun _ => Iff.rfl, rfl⟩

theorem State.Alike.trans {s u v : State} (h : s.Alike u) (k : u.Alike v) : s.Alike v :=
  ⟨k.store.trans h.store, k.tables.trans h.tables, k.elems.trans h.elems, k.blocked.trans h.blocked,
    k.linkB1.trans h.linkB1, k.linkB2.trans h.linkB2, fun e => (k.transState e).trans (h.transState e),
    fun r => (k.cleared r).trans (h.cleared r), k.mask.trans h.mask⟩

theorem State.alike_begun (s : State) : s.Alike s.begun :=
  ⟨rfl, rfl, rfl, rfl, rfl, rfl, fun _ => rfl, fun _ => Iff.rfl, rfl⟩

theorem State.alike_taken (s : State) {p : Port} (hp : portLink p = none ∨ s.comesUp p = false) :
    s.Alike (s.taken p) := by
  have hlink (q : Port) (hq : portLink q ≠ none) : ((s.taken p).link q).state = (s.link q).state := by
    rcases hp with hp | hp
    · cases p <;> cases q <;> first | rfl | exact absurd rfl hq | cases hp
    · exact s.linkState_taken p q hp
  exact ⟨by simp, by simp, by simp, by simp, hlink .b1 (by simp [portLink]), hlink .b2 (by simp [portLink]), by simp,
    by simp, by simp⟩

theorem State.alike_send (s : State) (p : Port) (t : Telegram) : s.Alike (s.send p t) :=
  ⟨rfl, rfl, rfl, rfl, rfl, rfl, fun _ => rfl, fun _ => Iff.rfl, rfl⟩

theorem State.alike_requests (s : State) (qs : List Request) : s.Alike { s with requests := qs } :=
  ⟨rfl, rfl, rfl, rfl, rfl, rfl, fun _ => rfl, fun _ => Iff.rfl, rfl⟩

/-- A write of a route that is CLEARED neither before nor after. -/
theorem State.alike_setRoute (s : State) {r : Nat} {w : RouteRec} (hs : (s.route r).state ≠ .cleared)
    (hw : w.state ≠ .cleared) : s.Alike (s.setRoute r w) :=
  { State.Alike.refl s with
    store := rfl, tables := rfl, elems := rfl, blocked := rfl, linkB1 := rfl, linkB2 := rfl, transState := fun _ => rfl
    cleared := fun q => by
      rw [State.route_setRoute]
      split
      · next hq =>
        subst hq
        exact ⟨fun h => absurd h hw, fun h => absurd h hs⟩
      · rfl
    mask := rfl }

theorem State.alike_queueing (s : State) {r : Nat} (o : Origin) (hs : (s.route r).state ≠ .cleared) :
    s.Alike (s.queueing r o) :=
  (s.alike_requests _).trans (State.alike_setRoute { s with requests := _ } hs (by simp))

theorem State.alike_unqueueing (s : State) {r : Nat} (hs : (s.route r).state ≠ .cleared) : s.Alike (s.unqueueing r) :=
  (s.alike_requests _).trans (State.alike_setRoute { s with requests := _ } hs (by simp))

/-- An event that hands nothing on and reaches no route only offers its reports. -/
theorem State.Alike.settle {s u : State} (h : s.Alike u) (offers : List Offer) :
    Ev.settle ⟨s, u, offers, []⟩ = u.reporting offers :=
  settle_of_same s u offers h.store h.tables h.elems h.blocked h.linkB1 h.linkB2 h.transState h.cleared h.mask

/-- The Reply to a request is sent. -/
theorem Ev.asked_answer_eq (s : State) (q : Req) (tag : Half) (code : ReplyCode) :
    (Ev.asked s).answer q tag code = ⟨s, (s.taken .c).replying q tag code .none, s.linkOffers .c, []⟩ := rfl

theorem State.alike_replying (s : State) (q : Req) (tag : Half) (code : ReplyCode) (data : ReplyData) :
    s.Alike ((s.taken .c).replying q tag code data) :=
  (s.alike_taken (.inl rfl)).trans (State.alike_send _ _ _)

@[simp] theorem State.replying_reads (s : State) (q : Req) (tag : Half) (code : ReplyCode) (data : ReplyData) :
    (s.replying q tag code data).route = s.route ∧ (s.replying q tag code data).rrow = s.rrow ∧
    (s.replying q tag code data).routeOffer = s.routeOffer ∧ (s.replying q tag code data).pointByte = s.pointByte ∧
    (s.replying q tag code data).unchangedBorder = s.unchangedBorder := by
  and_intros <;> rfl

@[simp] theorem State.unqueueing_reads (s : State) (r : Nat) :
    (s.unqueueing r).rrow = s.rrow ∧ (s.unqueueing r).pointByte = s.pointByte ∧
    (s.unqueueing r).unchangedBorder = s.unchangedBorder := by
  and_intros <;> rfl

@[simp] theorem State.taken_reports (s : State) (p : Port) :
    (s.taken p).routeOffer = s.routeOffer ∧ (s.taken p).unchangedBorder = s.unchangedBorder := by
  cases p <;> and_intros <;> rfl

end Sys2Proof.Machine

/-! PROOFS. The route requests that end with the Request Queue, and the refusals of the route requests. -/

section

open Sys2Proof Sys2Proof.Machine

/-- A Set Route of a found route. -/
theorem exec_setRoute_of_found {p : List Byte} {s : State} {r : Nat} (tag : Half) (ha : s.admits .setRoute p = true)
    (hr : s.payloadRoute p = .ok r) : exec (.setRoute tag p) s = .next (Ev.setRoute tag (Ev.asked s) r).settle :=
  congrArg Host.Outcome.next (takeRequest_of_found tag (fun s => s.payloadRoute p) (Ev.setRoute tag) ha hr)

theorem exec_cancelRoute_of_found {p : List Byte} {s : State} {r : Nat} (tag : Half)
    (ha : s.admits .cancelRoute p = true) (hr : s.payloadRoute p = .ok r) :
    exec (.cancelRoute tag p) s = .next (Ev.cancelRoute tag (Ev.asked s) r).settle :=
  congrArg Host.Outcome.next (takeRequest_of_found tag (fun s => s.payloadRoute p) (Ev.cancelRoute tag) ha hr)

theorem exec_reSignal_of_found {p : List Byte} {s : State} {r : Nat} (tag : Half) (ha : s.admits .reSignal p = true)
    (hr : s.payloadRoute p = .ok r) : exec (.reSignal tag p) s = .next (Ev.reSignal tag (Ev.asked s) r).settle :=
  congrArg Host.Outcome.next (takeRequest_of_found tag (fun s => s.payloadRoute p) (Ev.reSignal tag) ha hr)

/-- Settles O14: the last branch of R75. -/
theorem setRouteQueuesRequest : Obligations.SetRouteQueuesRequest := by
  intro tag p s r ha hr hk hf hl
  have hbody : Ev.setRoute tag (Ev.asked s) r =
      ((Ev.asked s).reply .setRoute tag .queued (.routeIndex r)).queueRoute r (.control tag) := by
    unfold Ev.setRoute
    simp [hk, hf, Nat.not_le.2 hl]
  have halike := (s.alike_replying .setRoute tag .queued (.routeIndex r)).trans
    (State.alike_queueing _ (r := r) (.control tag) (by simp [hf]))
  rw [exec_setRoute_of_found tag ha hr, hbody, Ev.queueRoute_eq]
  refine congrArg Host.Outcome.next ((halike.settle _).trans (State.reporting_congr rfl ?_))
  rfl

/-- Settles O15: the request is taken out of the queue, then a neighbour is answered. -/
theorem cancelQueuedRequest : Obligations.CancelQueuedRequest := by
  intro tag p s r ha hr hq
  have hbody : Ev.cancelRoute tag (Ev.asked s) r =
      ((Ev.asked s).answer .cancelRoute tag .accepted).cancelQueued r .cancelled true := by
    unfold Ev.cancelRoute
    simp [hq]
  have halike := (s.alike_replying .cancelRoute tag .accepted .none).trans
    (State.alike_unqueueing _ (r := r) (by simp [hq]))
  rw [exec_cancelRoute_of_found tag ha hr, hbody, Ev.cancelQueued_declining, Ev.cancelQueued_eq, Ev.asked_answer_eq]
  simp only [State.replying_reads, State.taken_reads, State.taken_reports]
  cases ho : (s.route r).origin with
  | none =>
    rw [Ev.declineOrigin_none, halike.settle, State.routeOffer, ho]
    rfl
  | some o =>
    cases o with
    | control t =>
      rw [Ev.declineOrigin_control, halike.settle, State.routeOffer, ho]
      rfl
    | neighbour l ref =>
      rw [Ev.declineOrigin_neighbour, Ev.sendDecline_eq, (halike.trans (State.alike_send _ _ _)).settle,
        State.routeOffer, ho]
      simp only [State.unqueueing_reads, State.replying_reads, State.taken_reads, State.taken_reports]
      rfl

/-- Settles O18: the refusing branches of R75, R78 and R91 answer and change nothing else. -/
theorem routeRequestRefusals : Obligations.RouteRequestRefusals := by
  refine ⟨fun tag p s r ha hr => ?_, fun tag p s r ha hr => ?_, fun tag p s r ha hr hn => ?_⟩
  · have answered {code : ReplyCode} (hb : Ev.setRoute tag (Ev.asked s) r = (Ev.asked s).answer .setRoute tag code) :
        exec (.setRoute tag p) s = .next (s.answered .setRoute tag code .none) := by
      rw [exec_setRoute_of_found tag ha hr, hb, Ev.asked_answer_settle]
    refine ⟨fun hk => answered ?_, fun hk hf => answered ?_, fun hk hf hl => answered ?_⟩
    · simp [Ev.setRoute, hk]
    · simp [Ev.setRoute, hk, hf]
    · simp [Ev.setRoute, hk, hf, hl]
  · have answered {code : ReplyCode}
        (hb : Ev.cancelRoute tag (Ev.asked s) r = (Ev.asked s).answer .cancelRoute tag code) :
        exec (.cancelRoute tag p) s = .next (s.answered .cancelRoute tag code .none) := by
      rw [exec_cancelRoute_of_found tag ha hr, hb, Ev.asked_answer_settle]
    refine ⟨fun hf => answered ?_, fun h => answered ?_⟩
    · simp [Ev.cancelRoute, hf]
    · rcases h with h | h | h <;> simp [Ev.cancelRoute, h]
  · have hb : Ev.reSignal tag (Ev.asked s) r = (Ev.asked s).answer .reSignal tag .notLocked := by
      simp [Ev.reSignal, hn]
    rw [exec_reSignal_of_found tag ha hr, hb, Ev.asked_answer_settle]

end

/-! PROOFS. The commands whose event hands nothing on: auxiliary commands that are not executed, telegrams that no block
takes, Offers that are declined or queued, and the entry into operation. -/

namespace Sys2Proof.Machine

/-! ### Auxiliary commands -/

theorem State.auxRefusal_taken (s : State) : (s.taken .c).auxRefusal = s.auxRefusal := by
  funext cmd
  cases cmd with
  | forcedRouteRelease r => rfl
  | sectionReset e => rfl
  | auxPointMove e side => simp only [State.auxRefusal, State.takenC_reads, State.taken_reads, State.takenC_holds]
  | forcedBorderClear e =>
    have hlink (l : Link) : (s.taken .c).link l.port = s.link l.port := by cases l <;> rfl
    simp only [State.auxRefusal, State.takenC_reads, State.taken_reads, hlink]

/-- The Aux Report on a pending command (R160). -/
def State.auxOffer (s : State) (p : AuxPending) (x : AuxEvent) : Offer :=
  ⟨.aux, .aux { event := x, cmd := p.cmd, target := s.auxTarget p.cmd, tag := p.tag }⟩

theorem Ev.endAux_of_none {ev : Ev} (h : ev.s.auxPending = none) (x : AuxEvent) : ev.endAux x = ev := by
  unfold Ev.endAux
  rw [h]

theorem Ev.endAux_of_some {ev : Ev} {p : AuxPending} (h : ev.s.auxPending = some p) (x : AuxEvent) :
    ev.endAux x = ⟨ev.before, ev.s.clearAux, ev.offers ++ [ev.s.auxOffer p x], ev.reached⟩ := by
  unfold Ev.endAux
  rw [h]
  rfl

theorem State.alike_clearAux (s : State) : s.Alike s.clearAux :=
  ⟨rfl, rfl, rfl, rfl, rfl, rfl, fun _ => rfl, fun _ => Iff.rfl, rfl⟩

/-- A command becomes pending and the window timer starts (R158). -/
def State.prepareAux (s : State) (p : AuxPending) : State := { s with auxPending := some p }.startAuxTimer

theorem State.alike_prepareAux (s : State) (p : AuxPending) : s.Alike (s.prepareAux p) :=
  ⟨rfl, rfl, rfl, rfl, rfl, rfl, fun _ => rfl, fun _ => Iff.rfl, rfl⟩

theorem exec_auxPrepare_of_found {p : List Byte} {s : State} {cmd : AuxCmd} (tag : Half)
    (ha : s.admits .auxPrepare p = true) (hp : s.payloadAux p = .ok cmd) :
    exec (.auxPrepare tag p) s = .next (Ev.auxPrepare tag (Ev.asked s) cmd).settle :=
  congrArg Host.Outcome.next (takeRequest_of_found tag (fun s => s.payloadAux p) (Ev.auxPrepare tag) ha hp)

theorem exec_auxConfirm_of_found {p : List Byte} {s : State} {cmd : AuxCmd} (tag : Half)
    (ha : s.admits .auxConfirm p = true) (hp : s.payloadAux p = .ok cmd) :
    exec (.auxConfirm tag p) s = .next (Ev.auxConfirm tag (Ev.asked s) cmd).settle :=
  congrArg Host.Outcome.next (takeRequest_of_found tag (fun s => s.payloadAux p) (Ev.auxConfirm tag) ha hp)

/-- Aux Prepare and Aux Confirm look their target up. -/
theorem exec_auxRequest {q : Req} (tag : Half) (p : List Byte) (hq : q = .auxPrepare ∨ q = .auxConfirm) :
    ∃ f : Ev → AuxCmd → Ev, ∀ s, exec (requestInstr q tag p) s =
      .next (takeRequest q tag p (fun ev => ev.withFound q tag (ev.s.payloadAux p) (f ev)) s) := by
  rcases hq with rfl | rfl <;> exact ⟨_, fun _ => rfl⟩

/-- A FORCED_ROUTE_RELEASE names its target by route key (R157). -/
theorem State.payloadAux_of_route {s : State} {p : List Byte} {code : ReplyCode} (hp : byteAt p 0 = 0x01)
    (h : s.lookupRoute (halfAt p 1) (halfAt p 3) (byteAt p 5).toNat = .error code) : s.payloadAux p = .error code := by
  unfold State.payloadAux
  rw [hp]
  simp [h, Except.map]

/-- The other kinds name their target by designation; the range of the kind and of the position has been judged. -/
theorem State.payloadAux_of_elem {q : Req} {s : State} {p : List Byte} {code : ReplyCode}
    (hq : q = .auxPrepare ∨ q = .auxConfirm) (hp : byteAt p 0 ≠ 0x01) (hr : q.inRange p = true)
    (h : s.lookup (halfAt p 1) = .error code) : s.payloadAux p = .error code := by
  have hne : (byteAt p 0).toNat ≠ 1 := fun hn => hp (BitVec.eq_of_toNat_eq hn)
  have hr : (match (byteAt p 0).toNat with
      | 1 => variantInRange (byteAt p 5)
      | 2 => true
      | 3 => (sideOfCode (byteAt p 6).toNat).isSome
      | 4 => true
      | _ => false) = true := by
    rcases hq with rfl | rfl <;> exact hr
  unfold State.payloadAux
  split at hr
  · next h1 => exact absurd h1 hne
  · next h2 => simp only [h2, h, Except.map]
  · next h3 =>
    obtain ⟨side, hside⟩ := Option.isSome_iff_exists.1 hr
    simp only [h3, hside, h, Except.map]
  · next h4 => simp only [h4, h, Except.map]
  · cases hr

end Sys2Proof.Machine

section

open Sys2Proof Sys2Proof.Machine

/-- Settles O22: the pending record, its timer and the report on what it replaces. -/
theorem auxPrepareMakesPending : Obligations.AuxPrepareMakesPending := by
  intro tag p s cmd ha hp hn
  have halike (code : ReplyCode) := (s.alike_replying .auxPrepare tag code .none).trans
    (State.alike_prepareAux _ { cmd := cmd, tag := tag })
  rw [exec_auxPrepare_of_found tag ha hp]
  refine congrArg Host.Outcome.next ?_
  cases hpend : s.auxPending with
  | none =>
    have hbody : Ev.auxPrepare tag (Ev.asked s) cmd =
        ⟨s, ((s.taken .c).replying .auxPrepare tag .accepted .none).prepareAux { cmd := cmd, tag := tag },
          s.linkOffers .c, []⟩ := by
      unfold Ev.auxPrepare
      simp only [Ev.asked_fields, State.auxRefusal_taken, hn, State.takenC_reads, hpend]
      rfl
    rw [hbody, (halike _).settle]
    rfl
  | some old =>
    have hbody : Ev.auxPrepare tag (Ev.asked s) cmd =
        ⟨s, ((s.taken .c).replying .auxPrepare tag .auxReplaced .none).prepareAux { cmd := cmd, tag := tag },
          s.linkOffers .c ++ [s.auxOffer old .superseded], []⟩ := by
      unfold Ev.auxPrepare
      simp only [Ev.asked_fields, State.auxRefusal_taken, hn, State.takenC_reads, hpend]
      rfl
    rw [hbody, (halike _).settle]
    rfl

/-- Settles O23: a failed lookup or test is the answer; a Confirm that does not fit discards what is pending. -/
theorem auxRequestRefusals : Obligations.AuxRequestRefusals := by
  refine ⟨fun q tag p s hq ha => ?_, fun tag p s cmd code ha hp hr => ?_, fun tag p s cmd ha hp => ?_⟩
  · obtain ⟨f, hf⟩ := exec_auxRequest tag p hq
    have answered {code : ReplyCode} (hx : s.payloadAux p = .error code) :
        exec (requestInstr q tag p) s = .next (s.answered q tag code .none) := by
      rw [hf, takeRequest_of_notFound tag (fun s => s.payloadAux p) f ha (by simpa using hx)]
    have hrange : q.inRange p = true := by
      simp only [State.admits, Bool.and_eq_true] at ha
      exact ha.2
    exact ⟨fun h1 => ⟨fun code h => answered (State.payloadAux_of_route h1 (State.lookupRoute_of_noStart h)),
        fun a code h h' => answered (State.payloadAux_of_route h1 (State.lookupRoute_of_noDest h h')),
        fun a b h h' hn => answered (State.payloadAux_of_route h1 (State.lookupRoute_of_noRoute h h' hn))⟩,
      fun h1 code h => answered (State.payloadAux_of_elem hq h1 hrange h)⟩
  · have hbody : Ev.auxPrepare tag (Ev.asked s) cmd = (Ev.asked s).answer .auxPrepare tag code := by
      unfold Ev.auxPrepare
      simp only [Ev.asked_fields, State.auxRefusal_taken, hr]
    rw [exec_auxPrepare_of_found tag ha hp, hbody, Ev.asked_answer_settle]
  · have discards {old : AuxPending} {code : ReplyCode} {cause : DiscardCause} (hold : s.auxPending = some old)
        (hbody : Ev.auxConfirm tag (Ev.asked s) cmd =
          ((Ev.asked s).answer .auxConfirm tag code).endAux (.discarded cause)) :
        exec (.auxConfirm tag p) s = .next
          ((({ (s.taken .c) with auxPending := none, auxTimer := none } : State).replying .auxConfirm tag code
            .none).reporting (s.linkOffers .c ++ [s.auxOffer old (.discarded cause)])) := by
      have halike := (s.alike_replying .auxConfirm tag code .none).trans (State.alike_clearAux _)
      rw [exec_auxConfirm_of_found tag ha hp, hbody, Ev.asked_answer_eq, Ev.endAux_of_some hold, halike.settle]
      rfl
    refine ⟨fun hnone => ?_, fun old hold hne => ?_, fun old code hold heq hr => ?_⟩
    · have hbody : Ev.auxConfirm tag (Ev.asked s) cmd = (Ev.asked s).answer .auxConfirm tag .auxSequence := by
        unfold Ev.auxConfirm
        simp only [Ev.asked_fields, State.takenC_reads, hnone]
      rw [exec_auxConfirm_of_found tag ha hp, hbody, Ev.asked_answer_settle]
    · refine discards hold ?_
      unfold Ev.auxConfirm
      simp only [Ev.asked_fields, State.takenC_reads, hold, hne, if_false]
    · refine discards hold ?_
      unfold Ev.auxConfirm
      simp only [Ev.asked_fields, State.takenC_reads, hold, heq, if_true, State.auxRefusal_taken, hr]

/-- Settles O25: the pending command ends with its report, where the window has expired. -/
theorem auxWindowExpiryClearsPending : Obligations.AuxWindowExpiryClearsPending := by
  intro s
  refine ⟨fun h => ?_, fun h => ?_⟩
  · simp only [exec, execAuxWindowExpiry, takeAuxWindowExpiry, h, Bool.false_eq_true, if_false]
  · have halike := s.alike_begun.trans (State.alike_clearAux _)
    simp only [exec, execAuxWindowExpiry, takeAuxWindowExpiry, h, if_true]
    refine congrArg Host.Outcome.next ?_
    cases hp : s.auxPending with
    | none =>
      rw [Ev.endAux_of_none (by exact hp)]
      exact halike.settle []
    | some old =>
      rw [Ev.endAux_of_some (p := old) (by exact hp)]
      exact (halike.trans (State.alike_clearAux _)).settle _

end

/-! PROOFS. Resets, telegrams that no block takes, and the entry into operation. -/

namespace Sys2Proof.Machine

/-! ### Resets -/

/-- Reports of one source are offered in the order in which they were raised (R174). -/
theorem Ev.commit_of_source {ev : Ev} (src : Src) (rs : List Report) (h : ev.offers = rs.map (fun r => ⟨src, r⟩)) :
    ev.commit = { rs.foldl State.offer { ev.s with mask := ev.before.mask } with mask := ev.s.mask } := by
  unfold Ev.commit
  rw [h, mergeOffers_one _ _ src rs 0 (by simp)]

theorem Ev.startCheck_of_valid {ev : Ev} (hv : ev.s.tablesValid = true) (hc : tableCrc ev.s.store = ev.s.storedCrc) :
    ev.startCheck = ((ev.on (fun s => { s with dmap := buildMap s.store })).resetMode .startup).on
      (fun s => { s with startupDeadline := some (s.deadlineAfter s.startupTicks) }) := by
  unfold Ev.startCheck
  rw [if_pos hv, if_pos hc]

theorem Ev.startCheck_of_mismatch {ev : Ev} (hv : ev.s.tablesValid = true) (hc : tableCrc ev.s.store ≠ ev.s.storedCrc) :
    ev.startCheck = ((ev.on (fun s => { s with tablesValid := false })).tableFault .startCheck).resetMode
      .maintenance := by
  unfold Ev.startCheck
  rw [if_pos hv, if_neg hc]

theorem Ev.startCheck_of_invalid {ev : Ev} (hv : ev.s.tablesValid = false) :
    ev.startCheck = ev.resetMode .maintenance := by
  unfold Ev.startCheck
  rw [if_neg (by simp [hv])]

/-- The STARTUP period is read from the element table alone (R184). -/
theorem State.startupTicks_congr {s t : State} (h1 : t.store = s.store) (h2 : t.tablesValid = s.tablesValid) :
    t.startupTicks = s.startupTicks := by
  unfold State.startupTicks State.elemIndices State.elemCount
  simp only [h1, h2, State.kind_congr h1 h2, State.erow]

/-- A reset whose start-up check finds the tables sound (R186). -/
theorem State.doReset_of_valid {s : State} (hv : s.tablesValid = true) (hc : tableCrc s.store = s.storedCrc) :
    s.doReset = { s.resetRuntime with
      events := s.events + 1, dmap := buildMap s.store, mode := .startup, safeN := true,
      startupDeadline := some (s.startupTicks % 3840000), queue := [.mode none .startup .reset] } := by
  unfold State.doReset
  rw [Ev.startCheck_of_valid (ev := Ev.start s.resetRuntime) hv hc,
    Ev.commit_of_source .route [.mode none .startup .reset] rfl]
  have hd (u : State) (hu : u.atTick = false) (ht : u.tick = 3839999) (n : Nat) : u.deadlineAfter n = n % 3840000 := by
    simp [State.deadlineAfter, State.date, hu, ht, tickWrap]
  simp only [Ev.on, Ev.resetMode, Ev.raise, Ev.start, State.resetRuntime]
  rw [hd _ rfl rfl, State.startupTicks_congr (s := s) rfl rfl]
  rfl

/-- A reset whose start-up check finds a mismatch (R186). -/
theorem State.doReset_of_mismatch {s : State} (hv : s.tablesValid = true) (hc : tableCrc s.store ≠ s.storedCrc) :
    s.doReset = { s.resetRuntime with
      events := s.events + 1, tablesValid := false, latches := setLatch 0 .tableFault,
      queue := [.fault { cls := .tableFault, designation := 0, port := none, route := none, cause := 3 },
                .mode none .maintenance .reset] } := by
  unfold State.doReset
  rw [Ev.startCheck_of_mismatch (ev := Ev.start s.resetRuntime) hv hc, Ev.commit_of_source .route
    [.fault { cls := .tableFault, designation := 0, port := none, route := none, cause := 3 },
      .mode none .maintenance .reset] rfl]
  have hm (u : State) (hu : u.mask = 0x7FF) (hq : u.queue = []) (f : FaultReport) (b : Option Mode) (m : Mode)
      (c : ModeCause) (hf : f.cls = .tableFault) :
      [Report.fault f, .mode b m c].foldl State.offer u = { u with queue := [.fault f, .mode b m c] } := by
    simp [State.offer, State.placeReport, maskAllows, Report.maskBit, hu, hq, hf, Latch.bit]
  rw [hm _ rfl rfl _ _ _ _ rfl]
  rfl

/-- A reset without valid tables (R186). -/
theorem State.doReset_of_invalid {s : State} (hv : s.tablesValid = false) :
    s.doReset = { s.resetRuntime with events := s.events + 1, queue := [.mode none .maintenance .reset] } := by
  unfold State.doReset
  rw [Ev.startCheck_of_invalid (ev := Ev.start s.resetRuntime) hv,
    Ev.commit_of_source .route [.mode none .maintenance .reset] rfl]
  rfl

theorem State.alike_restartPending (s : State) : s.Alike { s with restartPending := true } :=
  ⟨rfl, rfl, rfl, rfl, rfl, rfl, fun _ => rfl, fun _ => Iff.rfl, rfl⟩

end Sys2Proof.Machine

section

open Sys2Proof Sys2Proof.Machine

/-- Settles O31: the three outcomes of the start-up check; a Restart only has its mark set and its Reply sent. -/
theorem resetsRunStartCheck : Obligations.ResetsRunStartCheck := by
  refine ⟨fun s => ⟨_, rfl, ?_⟩, fun tag p s ha => ?_, fun s => ⟨fun h => ⟨_, rfl, ?_⟩, fun h => ?_⟩⟩
  · by_cases hv : s.tablesValid = true
    · by_cases hc : tableCrc s.store = s.storedCrc
      · rw [takePowerOnReset, State.doReset_of_valid hv hc, if_pos ⟨hv, hc⟩]
        exact ⟨rfl, hv, rfl, rfl, rfl, rfl, rfl, rfl⟩
      · rw [takePowerOnReset, State.doReset_of_mismatch hv hc, if_neg (by simp [hc]), if_pos hv]
        exact ⟨rfl, rfl, rfl, rfl, rfl, rfl, by simp [setLatch, Latch.bit], rfl⟩
    · rw [takePowerOnReset, State.doReset_of_invalid (by simpa using hv), if_neg (by simp [hv]), if_neg hv]
      exact ⟨rfl, Bool.eq_false_of_not_eq_true hv, rfl, rfl, rfl, rfl, rfl, rfl⟩
  · have halike := ((s.alike_taken (.inl rfl)).trans (State.alike_restartPending (s.taken .c))).trans
      (State.alike_send _ .c (.reply 0x03 0x05 tag .accepted .none))
    exact congrArg Host.Outcome.next ((takeRequest_asked tag _ ha).trans (halike.settle _))
  · exact congrArg Host.Outcome.next (if_pos h)
  · exact congrArg Host.Outcome.next (if_neg (by simp [h]))

end

/-! PROOFS. Telegrams that no block takes, and the Offers and other border telegrams that change no transaction. -/

namespace Sys2Proof.Machine

/-! ### Discarded telegrams -/

/-- Only the link record of the port tells a state from that after an invalid telegram. -/
theorem State.alike_afterInvalid (s : State) (p : Port) : s.Alike (s.afterInvalid p) := by
  have hs (q : Port) : ((s.afterInvalid p).link q).state = (s.link q).state := by
    have hq : (s.afterInvalid p).link q = (s.setLink p
        (if (s.link p).state = .up then s.link p else { s.link p with count := 0, timer := none })).link q := by
      cases q <;> rfl
    rw [hq, State.link_setLink]
    split
    · next h => subst h; split <;> rfl
    · rfl
  cases p <;> exact ⟨rfl, rfl, rfl, rfl, hs .b1, hs .b2, fun _ => rfl, fun _ => Iff.rfl, rfl⟩

/-- An invalid telegram moves its link watch and nothing else (R34, R35). -/
theorem Ev.invalidTelegram_settle (s : State) (p : Port) :
    ((Ev.start s).invalidTelegram p).settle = s.afterInvalid p := by
  have hev : (Ev.start s).invalidTelegram p = ⟨s, s.afterInvalid p, [], []⟩ := by
    have hlink : (Ev.start s).s.link p = s.link p := by cases p <;> rfl
    unfold Ev.invalidTelegram State.afterInvalid
    simp only [hlink]
    by_cases h : (s.link p).state = .up
    · simp only [h, if_true]
      cases p <;> rfl
    · simp only [h, if_false]
      cases p <;> rfl
  rw [hev, (s.alike_afterInvalid p).settle]
  rfl

theorem takeBorder_of_misfit (l : Link) (body : Ev → Ev) (s : State) {fits : Bool} (h : fits = false) :
    takeBorder l fits body s = s.afterInvalid l.port := by
  unfold takeBorder
  rw [if_neg (by simp [h]), Ev.invalidTelegram_settle]

/-- Every border transaction telegram is judged by its length before the BL acts. -/
theorem exec_kind (k : BorderKind) (l : Link) (p : List Byte) :
    ∃ body, ∀ s, exec (k.instr l p) s = .next (takeBorder l (borderTransactionFits p) body s) := by
  cases k with
  | offer => exact ⟨fun ev => ev.offer l (borderTxOf .offer p), fun _ => rfl⟩
  | accept => exact ⟨fun ev => ev.onBorder l (borderTxOf .accept p) (ev.accept l (borderTxOf .accept p)), fun _ => rfl⟩
  | decline =>
    exact ⟨fun ev => ev.onBorder l (borderTxOf .decline p) (ev.decline l (borderTxOf .decline p)), fun _ => rfl⟩
  | withdraw =>
    exact ⟨fun ev => ev.onBorder l (borderTxOf .withdraw p) (ev.withdraw l (borderTxOf .withdraw p)), fun _ => rfl⟩
  | handback =>
    exact ⟨fun ev => ev.onBorder l (borderTxOf .handback p) (ev.handback l (borderTxOf .handback p)), fun _ => rfl⟩

/-- A Status Telegram that step 3, 4 or 5 of R7 discards. -/
theorem Ev.statusJudged_of_discarded {ev : Ev} {p : List Byte}
    (h : ev.s.tablesValid = false ∨ ev.s.fecConfigured (byteAt p 0).toNat = false ∨
      ev.s.lifeOf (byteAt p 0).toNat = some (byteAt p 1)) : ev.statusJudged p = ev := by
  unfold Ev.statusJudged
  rcases h with h | h | h <;> simp [h]

@[simp] theorem State.takenF_reads (s : State) : (s.taken .f).fecConfigured = s.fecConfigured ∧
    (s.taken .f).lifeOf = s.lifeOf := ⟨rfl, rfl⟩

/-- Bytes that no border telegram spells are invalid (R33). -/
theorem takeInvalidBorderTelegram_of_wf {l : Link} {bytes : List Byte} (s : State)
    (h : decodeBPort l bytes = .invalidBorderTelegram l bytes) :
    takeInvalidBorderTelegram l bytes s = s.afterInvalid l.port := by
  unfold takeInvalidBorderTelegram
  rw [h]
  exact Ev.invalidTelegram_settle s l.port

/-! ### Offers -/

@[simp] theorem State.taken_border (s : State) (p : Port) :
    (s.taken p).offerRoute = s.offerRoute ∧ (s.taken p).entryRequests = s.entryRequests ∧
    (s.taken p).entryUnder = s.entryUnder ∧ (s.taken p).requests = s.requests := by
  cases p <;> and_intros <;> rfl

/-- A B-link telegram that is answered Decline and changes nothing else (R143). -/
theorem Ev.heard_sendDecline_settle (s : State) (l : Link) (found : Option Nat) (tx : BorderTx) (x : Reason)
    (hu : s.comesUp l.port = false) :
    ((Ev.heard s l).sendDecline l found tx.point tx.reference x).settle = s.declines l found tx x := by
  rw [Ev.sendDecline_eq]
  refine (((s.alike_taken (.inr hu)).trans (State.alike_send _ _ _)).settle _).trans (State.reporting_congr rfl ?_)
  simp only [Ev.heard_fields, State.taken_reports]
  rfl

section

variable {ev : Ev} {l : Link} {tx : BorderTx} {e r : Nat}

theorem Ev.offer_of_notReady (hm : ev.s.mode ≠ .operational) : ev.offer l tx =
    ev.sendDecline l (ev.s.borderElem l tx.point.toNat) tx.point tx.reference .notReady := if_pos hm

theorem Ev.offer_of_unknown (hm : ev.s.mode = .operational) (he : ev.s.borderElem l tx.point.toNat = none) :
    ev.offer l tx = ev.sendDecline l none tx.point tx.reference .unknownRoute := by
  unfold Ev.offer
  simp only [hm, he, ne_eq, not_true, if_false]

/-- An Offer for a BORDER element goes by the state of its transaction (R143 steps 3 to 7). -/
theorem Ev.offer_of_found (hm : ev.s.mode = .operational) (he : ev.s.borderElem l tx.point.toNat = some e) :
    ev.offer l tx =
      match (ev.s.transOf e).state with
      | .offerSent => ev.crossing l e tx
      | .heldOut => ev.sendDecline l (some e) tx.point tx.reference .borderBusy
      | .inHeld =>
        if (ev.s.transOf e).reference = some tx.reference then ev.sendBorder l (plainTx .accept tx.point tx.reference 0)
        else ev.sendDecline l (some e) tx.point tx.reference .borderBusy
      | .idle => ev.offerIdle l e tx := by
  unfold Ev.offer
  simp only [hm, he, ne_eq, not_true, if_false] <;> rfl

theorem Ev.offerIdle_of_noRoute (h : ev.s.offerRoute e tx = none) :
    ev.offerIdle l e tx = ev.sendDecline l (some e) tx.point tx.reference .unknownRoute := by
  unfold Ev.offerIdle
  rw [h]

theorem Ev.offerIdle_of_route (h : ev.s.offerRoute e tx = some r) :
    ev.offerIdle l e tx = ev.entryRequest l e r tx := by
  unfold Ev.offerIdle
  rw [h]

/-- An Offer repeated while its request waits (R77). -/
theorem Ev.entryRequest_of_repeated {q : Nat} (hq : q ∈ ev.s.entryRequests e)
    (ho : (ev.s.route q).origin = some (.neighbour l tx.reference)) : ev.entryRequest l e r tx = ev := by
  unfold Ev.entryRequest
  exact if_pos (List.any_eq_true.2 ⟨q, hq, by simp [ho]⟩)

/-- The tests of an entry request that no waiting one repeats (R77). -/
theorem Ev.entryRequest_of_new
    (h : ∀ q ∈ ev.s.entryRequests e, (ev.s.route q).origin ≠ some (.neighbour l tx.reference)) :
    ev.entryRequest l e r tx =
      if ev.s.entryRequests e ≠ [] then ev.sendDecline l (some e) tx.point tx.reference .borderBusy
      else if (ev.s.route r).state ≠ .free then ev.sendDecline l (some e) tx.point tx.reference .busy
      else if 8 ≤ ev.s.requests.length then ev.sendDecline l (some e) tx.point tx.reference .busy
      else ev.queueRoute r (.neighbour l tx.reference) := by
  have hany : (ev.s.entryRequests e).any
      (fun q => (ev.s.route q).origin == some (.neighbour l tx.reference)) = false := by
    simpa [List.any_eq_false] using h
  unfold Ev.entryRequest
  simp only [hany, Bool.false_eq_true, if_false]
  cases ev.s.entryRequests e <;> rfl

end

/-! ### Ignored telegrams -/

theorem Ev.onBorder_of_unknown (ev : Ev) (l : Link) (tx : BorderTx) (f : Nat → Ev)
    (h : ev.s.borderElem l tx.point.toNat = none) : ev.onBorder l tx f = ev := by
  unfold Ev.onBorder
  rw [h]

/-- A border telegram that is no Offer goes to the BORDER element of its number (R141). -/
theorem exec_kind_onBorder {k : BorderKind} (hk : k ≠ .offer) (l : Link) (p : List Byte) :
    ∃ body : Ev → Nat → Ev, ∀ s, exec (k.instr l p) s = .next (takeBorder l (borderTransactionFits p)
      (fun ev => ev.onBorder l (borderTxOf k p) (body ev)) s) := by
  cases k with
  | offer => exact absurd rfl hk
  | accept => exact ⟨fun ev => ev.accept l (borderTxOf .accept p), fun _ => rfl⟩
  | decline => exact ⟨fun ev => ev.decline l (borderTxOf .decline p), fun _ => rfl⟩
  | withdraw => exact ⟨fun ev => ev.withdraw l (borderTxOf .withdraw p), fun _ => rfl⟩
  | handback => exact ⟨fun ev => ev.handback l (borderTxOf .handback p), fun _ => rfl⟩

theorem exec_withdraw (l : Link) (p : List Byte) (s : State) {e : Nat} (hf : borderTransactionFits p = true)
    (hu : s.comesUp l.port = false) (he : s.borderElem l (byteAt p 0).toNat = some e) :
    exec (.withdraw l p) s = .next ((Ev.heard s l).withdraw l (borderTxOf .withdraw p) e).settle :=
  congrArg Host.Outcome.next
    (takeBorder_onBorder l .withdraw p (fun ev => ev.withdraw l (borderTxOf .withdraw p)) s hf hu he)

theorem exec_handback (l : Link) (p : List Byte) (s : State) {e : Nat} (hf : borderTransactionFits p = true)
    (hu : s.comesUp l.port = false) (he : s.borderElem l (byteAt p 0).toNat = some e) :
    exec (.handback l p) s = .next ((Ev.heard s l).handback l (borderTxOf .handback p) e).settle :=
  congrArg Host.Outcome.next
    (takeBorder_onBorder l .handback p (fun ev => ev.handback l (borderTxOf .handback p)) s hf hu he)

/-- What `entryUnder` answers, said of the route found (R149). -/
theorem State.entryUnder_spec {s : State} {l : Link} {e r : Nat} {ref : Byte} {p : RState → Bool}
    (h : s.entryUnder l e ref p = some r) :
    s.routeKind r = some .entry ∧ (s.rrow r).start = e ∧ p (s.route r).state = true ∧
    (s.route r).origin = some (.neighbour l ref) := by
  have hp := List.find?_some h
  simp only [Bool.and_eq_true, beq_iff_eq] at hp
  obtain ⟨⟨⟨hk, hs⟩, hp⟩, ho⟩ := hp
  exact ⟨hk, hs, hp, ho⟩

theorem State.entryUnder_of_none {s : State} {l : Link} {e : Nat} {ref : Byte} {p : RState → Bool}
    (h : ∀ r, p (s.route r).state = true → (s.route r).origin ≠ some (.neighbour l ref)) :
    s.entryUnder l e ref p = none := by
  cases hu : s.entryUnder l e ref p with
  | none => rfl
  | some r =>
    obtain ⟨-, -, hp, ho⟩ := State.entryUnder_spec hu
    exact absurd ho (h r hp)

section

variable {ev : Ev} {l : Link} {tx : BorderTx} {e : Nat}

/-- A Withdraw by the state of the transaction (R149). -/
theorem Ev.withdraw_of_idle (h : (ev.s.transOf e).state = .idle) :
    ev.withdraw l tx e = ev.withdrawRequest l e tx.reference true := by
  unfold Ev.withdraw
  simp only [h]

theorem Ev.withdraw_of_offerSent (h : (ev.s.transOf e).state = .offerSent) :
    ev.withdraw l tx e = ev.withdrawRequest l e tx.reference false := by
  unfold Ev.withdraw
  simp only [h]

theorem Ev.withdraw_of_heldOut (h : (ev.s.transOf e).state = .heldOut) : ev.withdraw l tx e = ev := by
  unfold Ev.withdraw
  simp only [h]

theorem Ev.withdraw_of_otherReference (h : (ev.s.transOf e).state = .inHeld)
    (hr : (ev.s.transOf e).reference ≠ some tx.reference) : ev.withdraw l tx e = ev := by
  unfold Ev.withdraw
  simp only [h, hr, if_false]

theorem Ev.withdrawRequest_of_none {ref : Byte} {both : Bool}
    (h : ∀ r, (ev.s.route r).state.waiting = true → (ev.s.route r).origin ≠ some (.neighbour l ref)) :
    ev.withdrawRequest l e ref both = ev := by
  have hn : ev.s.entryUnder l e ref (fun x => x == .queued || (both && x == .setting)) = none := by
    refine State.entryUnder_of_none (fun r hr => h r ?_)
    simp only [Bool.or_eq_true, Bool.and_eq_true, beq_iff_eq] at hr
    rcases hr with hr | ⟨-, hr⟩ <;> rw [hr] <;> rfl
  unfold Ev.withdrawRequest
  rw [hn]

theorem Ev.handback_of_other (h : ¬ ((ev.s.transOf e).state = .inHeld ∧ (ev.s.transOf e).reference = some tx.reference)) :
    ev.handback l tx e = ev := if_neg h

end

end Sys2Proof.Machine

section

open Sys2Proof Sys2Proof.Machine

/-- Settles O34: each discard by the link watch alone, or with the Reply UNKNOWN_KIND. -/
theorem unusableTelegramsAreDiscarded : Obligations.UnusableTelegramsAreDiscarded := by
  refine ⟨fun bytes s => ⟨fun h => ?_, fun f hf hk => ?_⟩, fun bytes s => ⟨fun h => ?_, fun p hp h => ?_⟩,
    fun l s => ⟨fun bytes h => ?_, fun p h => ?_, fun k p h => ?_⟩⟩
  · refine congrArg Host.Outcome.next ?_
    rw [← Ev.invalidTelegram_settle, takeUnknownKind, h]
  · refine congrArg Host.Outcome.next ?_
    simp only [takeUnknownKind, hf, hk, Ev.validTelegram_eq s .c (.inl rfl)]
    exact ((s.alike_taken (.inl rfl)).trans (State.alike_send _ _ _)).settle _
  · refine congrArg Host.Outcome.next ?_
    rw [← Ev.invalidTelegram_settle, takeStatusTelegram, h]
  · refine congrArg Host.Outcome.next ?_
    simp only [takeStatusTelegram, hp, Ev.validTelegram_eq s .f (.inl rfl)]
    rw [Ev.statusJudged_of_discarded (by simpa using h)]
    exact (s.alike_taken (.inl rfl)).settle _
  · exact congrArg Host.Outcome.next (takeInvalidBorderTelegram_of_wf s (eq_of_beq h))
  · exact congrArg Host.Outcome.next (takeBorder_of_misfit l _ s h)
  · obtain ⟨body, hk⟩ := exec_kind k l p
    rw [hk, takeBorder_of_misfit l body s h]

/-- Settles O37: each branch of R143, R144 and R77 that declines, in their order. -/
theorem offerIsDeclined : Obligations.OfferIsDeclined := by
  intro l p s hf hu
  have declined {x : Reason} {found : Option Nat}
      (hb : (Ev.heard s l).offer l (borderTxOf .offer p) =
        (Ev.heard s l).sendDecline l found (byteAt p 0) (byteAt p 1) x) :
      exec (.offer l p) s = .next (s.declines l found (borderTxOf .offer p) x) := by
    rw [exec_offer l p s hf hu, hb]
    exact congrArg Host.Outcome.next (Ev.heard_sendDecline_settle s l found (borderTxOf .offer p) x hu)
  refine ⟨fun hm => declined ?_, fun hm he => ?_, fun e hm he => ?_⟩
  · rw [Ev.offer_of_notReady (by simpa using hm)]
    simp
  · exact he ▸ declined (Ev.offer_of_unknown (by simpa using hm) (by simpa using he))
  · rw [he]
    have hoff := Ev.offer_of_found (ev := Ev.heard s l) (l := l) (tx := borderTxOf .offer p) (e := e)
      (by simpa using hm) (by simpa using he)
    simp only [Ev.heard_fields, State.taken_reads] at hoff
    refine ⟨fun ht => declined ?_, fun ht hr => declined ?_, fun ht hs => declined ?_, fun ht hr => declined ?_,
      fun r ht hr hq => ?_⟩
    · simpa [ht] using hoff
    · simpa [ht, hr] using hoff
    · simpa [ht, Ev.crossing, hs] using hoff
    · rw [hoff, ht]
      exact Ev.offerIdle_of_noRoute (by simpa using hr)
    · have hnew := Ev.entryRequest_of_new (ev := Ev.heard s l) (l := l) (tx := borderTxOf .offer p) (e := e) (r := r)
        (by simpa using hq)
      simp only [ht, Ev.offerIdle_of_route (ev := Ev.heard s l) (l := l) (by simpa using hr)] at hoff
      rw [hnew] at hoff
      refine ⟨fun hw => declined ?_, fun hw hs => declined ?_, fun hw hs hl => declined ?_⟩
      · simpa [hw] using hoff
      · simpa [hw, hs] using hoff
      · simpa [hw, hs, hl] using hoff

/-- Settles O38: the last branch of R77. -/
theorem offerQueuesEntryRoute : Obligations.OfferQueuesEntryRoute := by
  intro l p s e r hf hu hm he ht hr hw hs hl
  have hoff := Ev.offer_of_found (ev := Ev.heard s l) (l := l) (tx := borderTxOf .offer p) (e := e)
    (by simpa using hm) (by simpa using he)
  simp only [Ev.heard_fields, State.taken_reads, ht] at hoff
  rw [Ev.offerIdle_of_route (r := r) (by simpa using hr), Ev.entryRequest_of_new (by simp [hw])] at hoff
  simp only [Ev.heard_fields, State.taken_reads, State.taken_border, hw, hs, ne_eq, not_true, if_false,
    Nat.not_le.2 hl] at hoff
  have halike := (s.alike_taken (p := l.port) (.inr hu)).trans
    (State.alike_queueing _ (r := r) (.neighbour l (byteAt p 1)) (by simp [hs]))
  rw [exec_offer l p s hf hu, hoff, Ev.queueRoute_eq]
  refine congrArg Host.Outcome.next ((halike.settle _).trans (State.reporting_congr ?_ ?_))
  · simp [State.queueing]
  · simp [State.routeOffer]

/-- Settles O40: each telegram that R141, R146, R149, R150 or R77 ignores leaves the event as the link watch made it. -/
theorem borderTelegramIgnored : Obligations.BorderTelegramIgnored := by
  intro l p s hf hu
  refine ⟨fun k hk he => ?_, fun e he => ?_⟩
  · obtain ⟨body, hb⟩ := exec_kind_onBorder hk l p
    rw [hb, takeBorder_eq_settle l _ _ s hf hu, Ev.onBorder_of_unknown _ _ _ _ (by simpa using he),
      Ev.heard_settle s l hu]
  · have kept {b : Ev} {i : Instr} (hi : exec i s = .next b.settle) (hb : b = Ev.heard s l) :
        exec i s = .next (s.taken l.port) := by rw [hi, hb, Ev.heard_settle s l hu]
    refine ⟨fun r q hm ht hr hq ho => kept (exec_offer l p s hf hu) ?_,
      fun ht hr => kept (exec_accept l p s hf hu he) ?_, fun h => kept (exec_handback l p s hf hu he) ?_,
      fun ht => kept (exec_withdraw l p s hf hu he) ?_, fun ht hr => kept (exec_withdraw l p s hf hu he) ?_,
      fun ht hn => kept (exec_withdraw l p s hf hu he) ?_⟩
    · rw [Ev.offer_of_found (e := e) (by simpa using hm) (by simpa using he)]
      simp only [Ev.heard_fields, State.taken_reads, ht]
      rw [Ev.offerIdle_of_route (r := r) (by simpa using hr)]
      exact Ev.entryRequest_of_repeated (q := q) (by simpa using hq) (by simpa using ho)
    · exact Ev.accept_of_repeated _ l _ e (by simpa using ht) (by simpa using hr)
    · exact Ev.handback_of_other (by simpa using h)
    · exact Ev.withdraw_of_heldOut (by simpa using ht)
    · exact Ev.withdraw_of_otherReference (by simpa using ht) (by simpa using hr)
    · rcases ht with ht | ht
      · rw [Ev.withdraw_of_idle (by simpa using ht)]
        exact Ev.withdrawRequest_of_none (by simpa using hn)
      · rw [Ev.withdraw_of_offerSent (by simpa using ht)]
        exact Ev.withdrawRequest_of_none (by simpa using hn)

end

/-! PROOFS. The events inside the part that hand nothing on: a refused reservation, a link that falls silent, and the
entry into operation. -/

namespace Sys2Proof.Machine

/-! ### The next reservation -/

/-- The FREE context taken is one of the four (R80). -/
theorem State.freeCtxNumber_spec {s : State} {c : Nat} (h : s.freeCtxNumber = some c) : c < 4 ∧ s.ctx c = none := by
  have hm := List.mem_of_find?_eq_some h
  have hn := List.find?_some h
  simp only [contextNumbers, List.mem_cons, List.not_mem_nil, or_false] at hm
  exact ⟨by omega, by simpa using hn⟩

theorem State.freeCtxNumber_of_free {s : State} (h : ∃ c, c < 4 ∧ s.ctx c = none) : ∃ c, s.freeCtxNumber = some c := by
  obtain ⟨c, hc, hn⟩ := h
  refine Option.isSome_iff_exists.1 (List.find?_isSome.2 ⟨c, ?_, by simp [hn]⟩)
  simp only [contextNumbers, List.mem_cons, List.not_mem_nil, or_false]
  omega

theorem State.nextReservation_eq_some {s : State} {c : Nat} {q : Request} (h : s.nextReservation = some (c, q)) :
    s.mode = .operational ∧ (∃ rest, s.requests = q :: rest) ∧ s.freeCtxNumber = some c := by
  unfold State.nextReservation at h
  split at h
  · next hm hr hf =>
    cases h
    exact ⟨hm, ⟨_, hr⟩, hf⟩
  · cases h

theorem State.nextReservation_of_possible {s : State} {c : Nat} {q : Request} {rest : List Request}
    (hm : s.mode = .operational) (hr : s.requests = q :: rest) (hf : s.freeCtxNumber = some c) :
    s.nextReservation = some (c, q) := by
  unfold State.nextReservation
  rw [hm, hr, hf]

theorem takeReservation_of_none {s : State} (h : s.nextReservation = none) : takeReservation s = s := by
  unfold takeReservation
  rw [h]

theorem takeReservation_of_some {s : State} {c : Nat} {q : Request} (h : s.nextReservation = some (c, q)) :
    takeReservation s = ((Ev.start s).reservation c q).settle := by
  unfold takeReservation
  rw [h]

/-! ### What the reservation tests read -/

@[simp] theorem State.begun_reads (s : State) :
    s.begun.holds = s.holds ∧ s.begun.elem = s.elem ∧ s.begun.kind = s.kind ∧ s.begun.erow = s.erow ∧
    s.begun.rrow = s.rrow ∧ s.begun.routeKind = s.routeKind ∧ s.begun.isEntry = s.isEntry ∧
    s.begun.route = s.route ∧ s.begun.ctx = s.ctx ∧ s.begun.ctxTimer = s.ctxTimer ∧ s.begun.transOf = s.transOf ∧
    s.begun.timerOf = s.timerOf ∧ s.begun.desig = s.desig ∧ s.begun.routeKeyOf = s.routeKeyOf ∧
    s.begun.pointByte = s.pointByte ∧ s.begun.elemLink = s.elemLink ∧ s.begun.atSide = s.atSide ∧
    s.begun.lockedSet = s.lockedSet ∧ s.begun.routePoints = s.routePoints ∧ s.begun.offerRef = s.offerRef ∧
    s.begun.requiredMs = s.requiredMs ∧ s.begun.flankAvailable = s.flankAvailable ∧
    s.begun.reservationTests = s.reservationTests := by
  have hholds : s.begun.holds = s.holds := by
    funext e c
    cases c <;> rfl
  have hside : s.begun.atSide = s.atSide := by
    funext e side
    cases side <;> rfl
  have hoffer : s.begun.offerRef = s.offerRef := by
    funext l
    cases l <;> rfl
  exact ⟨hholds, rfl, rfl, rfl, rfl, rfl, rfl, rfl, rfl, rfl, rfl, rfl, rfl, rfl, rfl, rfl, hside, rfl, rfl, hoffer, rfl,
    rfl, rfl⟩

theorem State.walkChain_begun (s : State) (r : Nat) (res : List FlankRec) (n i : Nat) :
    s.begun.walkChain r res n i = s.walkChain r res n i := by
  induction n generalizing i with
  | zero => rfl
  | succ n ih =>
    have hstore : s.begun.store = s.store := rfl
    simp only [State.walkChain, hstore, State.begun_reads, ih]

theorem State.resolveFlank_begun (s : State) (r : Nat) (res : List FlankRec) (reqs : List ListRow) :
    s.begun.resolveFlank r res reqs = s.resolveFlank r res reqs := by
  induction reqs generalizing res with
  | nil => rfl
  | cons q reqs ih =>
    have hstore : s.begun.store = s.store := rfl
    simp only [State.resolveFlank, State.walkChain_begun, hstore, ih]

/-- The tests of a reservation do not read the number of the event. -/
theorem State.reservationOutcome_begun (s : State) (r : Nat) :
    s.begun.reservationOutcome r = s.reservationOutcome r := by
  have hstore : s.begun.store = s.store := rfl
  simp only [State.reservationOutcome, State.begun_reads, State.resolveFlank_begun, hstore]

/-- The head of the Request Queue is taken (R80, R81). -/
theorem Ev.reservation_start (s : State) (c : Nat) (q : Request) :
    (Ev.start s).reservation c q =
      match s.reservationOutcome q.route with
      | .ok res => (⟨s, { s.begun with requests := s.requests.drop 1 }, [], []⟩ : Ev).reserve c q res
      | .error x => (⟨s, { s.begun with requests := s.requests.drop 1 }, [], []⟩ : Ev).refuseReservation q x := by
  rw [← State.reservationOutcome_begun]
  rfl

/-! ### Links that fall silent -/

/-- A link in UP has fallen silent: LOST, latched and reported (R35, R37). -/
def State.losing (s : State) (p : Port) : State :=
  { (s.begun.setLink p { state := .lost }).latch .linkFault with lostPorts := s.lostPorts ||| (1#4 <<< portBit p) }

/-- The event of a link's loss before it is handed on (R37). -/
def Ev.lost (s : State) (p : Port) : Ev := ⟨s, s.losing p, [⟨.link, .fault (linkReport p .lost)⟩], []⟩

theorem Ev.lost_eq (s : State) (p : Port) :
    ((Ev.start s).on (fun s => { s.setLink p { state := .lost } with
      lostPorts := s.lostPorts ||| (1#4 <<< portBit p) })).fault .link (linkReport p .lost) = Ev.lost s p := by
  cases p <;> rfl

theorem Ev.linkLost_start (s : State) (p : Port) : (Ev.start s).linkLost p =
    match p with
    | .c => (Ev.lost s .c).endAux (.discarded .linkLost)
    | .f => Ev.lost s .f
    | .b1 => (Ev.lost s .b1).borderLoss .b1
    | .b2 => (Ev.lost s .b2).borderLoss .b2 := by
  unfold Ev.linkLost
  cases p <;> simp only [Ev.lost_eq]

theorem State.alike_setLink (s : State) {p : Port} (hp : portLink p = none) (x : LinkRec) : s.Alike (s.setLink p x) := by
  cases p with
  | c | f => exact ⟨rfl, rfl, rfl, rfl, rfl, rfl, fun _ => rfl, fun _ => Iff.rfl, rfl⟩
  | b1 | b2 => cases hp

theorem State.alike_latch (s : State) (l : Latch) : s.Alike (s.latch l) :=
  ⟨rfl, rfl, rfl, rfl, rfl, rfl, fun _ => rfl, fun _ => Iff.rfl, rfl⟩

theorem State.alike_lostPorts (s : State) (x : BitVec 4) : s.Alike { s with lostPorts := x } :=
  ⟨rfl, rfl, rfl, rfl, rfl, rfl, fun _ => rfl, fun _ => Iff.rfl, rfl⟩

theorem State.alike_losing (s : State) {p : Port} (hp : portLink p = none) : s.Alike (s.losing p) :=
  ((s.alike_begun.trans (s.begun.alike_setLink hp _)).trans (State.alike_latch _ _)).trans (State.alike_lostPorts _ _)

theorem takeLinkTimerExpiry_of_up {s : State} {p : Port} (hd : s.passes (s.link p).timer = true)
    (hu : (s.link p).state = .up) : takeLinkTimerExpiry p s = ((Ev.start s).linkLost p).settle := by
  unfold takeLinkTimerExpiry
  simp only [hd, hu, if_true]

theorem takeLinkTimerExpiry_of_down {s : State} {p : Port} (hd : s.passes (s.link p).timer = true)
    (hu : (s.link p).state ≠ .up) : takeLinkTimerExpiry p s = s.afterInvalid p := by
  have hev : (Ev.start s).on (fun s' => s'.setLink p { s.link p with count := 0, timer := none }) =
      ⟨s, s.afterInvalid p, [], []⟩ := by
    unfold State.afterInvalid
    simp only [hu, if_false]
    cases p <;> rfl
  unfold takeLinkTimerExpiry
  simp only [hd, hu, if_true, if_false]
  rw [hev, (s.alike_afterInvalid p).settle]
  rfl

/-! ### Modes -/

theorem State.alike_entering (s : State) (m : Mode) (high : Bool) (d : Option Nat) :
    s.Alike { s with mode := m, safeN := high, startupDeadline := d } :=
  ⟨rfl, rfl, rfl, rfl, rfl, rfl, fun _ => rfl, fun _ => Iff.rfl, rfl⟩

/-- ENTER_OPERATION is taken in MAINTENANCE only (R167). -/
theorem State.mode_of_admits_enterOperation {s : State} {p : List Byte} (h : s.admits .enterOperation p = true) :
    s.mode = .maintenance := by
  simp only [State.admits, Bool.and_eq_true] at h
  cases hm : s.mode <;> simp [hm, modeAnswer, Req.cls] at h ⊢

theorem Ev.asked_enterOperation_of_valid {s : State} (tag : Half) (hv : s.tablesValid = true)
    (hm : s.mode = .maintenance) : Ev.enterOperation tag (Ev.asked s) = ⟨s,
      { (s.taken .c).replying .enterOperation tag .accepted .none with
        mode := .startup, safeN := true, startupDeadline := some (s.deadlineAfter s.startupTicks) },
      s.linkOffers .c ++ [⟨.route, .mode (some .maintenance) .startup .enterOperation⟩], []⟩ := by
  have hticks (u : State) (h1 : u.store = s.store) (h2 : u.tablesValid = s.tablesValid)
      (hd : u.deadlineAfter = s.deadlineAfter) :
      u.deadlineAfter u.startupTicks = s.deadlineAfter s.startupTicks := by
    rw [hd, State.startupTicks_congr h1 h2]
  have hv' : (Ev.asked s).s.tablesValid = true := hv
  unfold Ev.enterOperation
  rw [if_pos hv', ← hm]
  simp only [Ev.enterStartup, Ev.enterMode, Ev.raise, Ev.on, Ev.answer, Ev.reply, Ev.asked]
  rw [hticks _ rfl rfl rfl]
  rfl

theorem Ev.asked_enterOperation_of_invalid {s : State} (tag : Half) (hv : s.tablesValid = false) :
    Ev.enterOperation tag (Ev.asked s) = (Ev.asked s).reply .enterOperation tag .tableInvalid (.record 0 0) := by
  have hv' : (Ev.asked s).s.tablesValid ≠ true := by simp [hv]
  exact if_neg hv'

end Sys2Proof.Machine

section

open Sys2Proof Sys2Proof.Machine

/-- Settles O45: where no reservation is possible the state stands; a refused one frees the route, and a neighbour that
asked for it is answered. -/
theorem reservationRefusesRequest : Obligations.ReservationRefusesRequest := by
  refine fun s => ⟨fun h => ?_, fun q rest x e hm hr hf hq hout => ?_⟩
  · refine congrArg Host.Outcome.next (takeReservation_of_none ?_)
    cases hn : s.nextReservation with
    | none => rfl
    | some cq =>
      obtain ⟨hm, ⟨rest, hr⟩, hf⟩ := State.nextReservation_eq_some (c := cq.1) (q := cq.2) hn
      obtain ⟨hc, hfree⟩ := State.freeCtxNumber_spec hf
      rcases h with h | h | h
      · exact absurd hm h
      · simp [h] at hr
      · exact absurd hfree (h _ hc)
  · obtain ⟨c, hc⟩ := State.freeCtxNumber_of_free hf
    have hw : (s.route q.route).state ≠ .cleared := by simp [hq]
    have halike : s.Alike (({ s.begun with requests := rest } : State).setRoute q.route {}) :=
      (s.alike_begun.trans (s.begun.alike_requests rest)).trans
        (State.alike_setRoute { s.begun with requests := rest } hw (by simp))
    have hev : (Ev.start s).reservation c q =
        (⟨s, ({ s.begun with requests := rest } : State).setRoute q.route {},
          [s.routeOffer q.route (s.route q.route) (.refused x (s.desig e))], []⟩ : Ev).declineOrigin q.route
            (some q.origin) x := by
      rw [Ev.reservation_start, hout, hr]
      rfl
    refine congrArg Host.Outcome.next ?_
    rw [takeReservation_of_some (State.nextReservation_of_possible hm hr hc), hev]
    cases q.origin with
    | control tag => exact halike.settle _
    | neighbour l ref =>
      rw [Ev.declineOrigin_neighbour, Ev.sendDecline_eq]
      exact (halike.trans (State.alike_send _ _ _)).settle _

/-- Settles O47: the three states of the link, and at the C-port the pending auxiliary command. -/
theorem linkTimerExpiryLosesLink : Obligations.LinkTimerExpiryLosesLink := by
  refine fun p s => ⟨fun h => congrArg Host.Outcome.next (if_neg (by simp [h])),
    fun hd hu => congrArg Host.Outcome.next (takeLinkTimerExpiry_of_down hd hu), fun hd hu => ?_⟩
  have hexec : exec (.linkTimerExpiry p) s = .next ((Ev.start s).linkLost p).settle :=
    congrArg Host.Outcome.next (takeLinkTimerExpiry_of_up hd hu)
  rw [hexec]
  refine ⟨fun hp => ?_, fun hp hn => ?_, fun old hp ho => ?_⟩
  · subst hp
    rw [Ev.linkLost_start]
    exact congrArg Host.Outcome.next ((s.alike_losing rfl).settle _)
  · subst hp
    rw [Ev.linkLost_start, Ev.endAux_of_none (ev := Ev.lost s .c) hn]
    exact congrArg Host.Outcome.next ((s.alike_losing rfl).settle _)
  · subst hp
    rw [Ev.linkLost_start, Ev.endAux_of_some (ev := Ev.lost s .c) ho]
    exact congrArg Host.Outcome.next (((s.alike_losing rfl).trans (State.alike_clearAux _)).settle _)

/-- Settles O51: the mode changes with its report, at the request and at the deadline. -/
theorem startupBeginsAndEnds : Obligations.StartupBeginsAndEnds := by
  refine ⟨fun tag p s ha => ⟨fun hv => ?_, fun hv => ?_⟩, fun s => ?_⟩
  · refine congrArg Host.Outcome.next ((takeRequest_asked tag _ ha).trans ?_)
    rw [Ev.asked_enterOperation_of_valid tag hv (State.mode_of_admits_enterOperation ha)]
    exact ((s.alike_replying .enterOperation tag .accepted .none).trans (State.alike_entering _ _ _ _)).settle _
  · refine congrArg Host.Outcome.next ((takeRequest_asked tag _ ha).trans ?_)
    rw [Ev.asked_enterOperation_of_invalid tag hv, Ev.asked_reply_settle]
  · refine congrArg Host.Outcome.next ?_
    unfold takeStartupEnd
    split
    · next h =>
      rw [← h.1]
      exact (s.alike_begun.trans (s.begun.alike_entering .operational true none)).settle _
    · rfl

end

/-! PROOFS. The tables: the sort of the Route Table, loading and verification, and the return to MAINTENANCE. -/

namespace Sys2Proof.Machine

/-! ### The sort of the Route Table -/

theorem keyLt_trans {a b c : RouteRow} (h : keyLt a b = true) (k : keyLt b c = true) : keyLt a c = true := by
  simp only [keyLt, Bool.or_eq_true, Bool.and_eq_true, decide_eq_true_eq, beq_iff_eq] at h k ⊢
  omega

/-- Of two routes with different keys one precedes the other (R40). -/
theorem keyLt_of_not {a b : RouteRow} (h : keyLt a b = false) (hk : sameKey a b = false) : keyLt b a = true := by
  simp only [keyLt, sameKey, Bool.or_eq_false_iff, Bool.and_eq_false_iff, decide_eq_false_iff_not, Bool.or_eq_true,
    Bool.and_eq_true, decide_eq_true_eq, beq_iff_eq, beq_eq_false_iff_ne, ne_eq] at h hk ⊢
  omega

theorem insertPos_perm (m : Memory) (p : Nat) (l : List Nat) : (insertPos m p l).Perm (p :: l) := by
  induction l with
  | nil => exact .refl _
  | cons q t ih =>
    unfold insertPos
    split
    · exact .refl _
    · exact (ih.cons q).trans (.swap p q t)

/-- An insertion keeps the ascending order where the new key is no other's. -/
theorem insertPos_ascends (m : Memory) (p : Nat) (l : List Nat)
    (hl : l.Pairwise (fun a b => keyLt (routeRow m a) (routeRow m b) = true))
    (hp : ∀ q ∈ l, sameKey (routeRow m p) (routeRow m q) = false) :
    (insertPos m p l).Pairwise (fun a b => keyLt (routeRow m a) (routeRow m b) = true) := by
  induction l with
  | nil => simp [insertPos]
  | cons q t ih =>
    obtain ⟨hq, ht⟩ := List.pairwise_cons.1 hl
    unfold insertPos
    split
    · next h =>
      refine List.pairwise_cons.2 ⟨fun x hx => ?_, hl⟩
      rcases List.mem_cons.1 hx with rfl | hx
      · exact h
      · exact keyLt_trans h (hq x hx)
    · next h =>
      refine List.pairwise_cons.2 ⟨fun x hx => ?_, ih ht (fun y hy => hp y (by simp [hy]))⟩
      rcases List.mem_cons.1 ((insertPos_perm m p t).mem_iff.1 hx) with rfl | hx
      · exact keyLt_of_not (by simpa using h) (hp q (by simp))
      · exact hq x hx

theorem sameKey_comm (a b : RouteRow) : sameKey a b = sameKey b a := by
  unfold sameKey
  rw [BEq.comm (a := a.start), BEq.comm (a := a.dest), BEq.comm (a := a.variant)]

/-- The load positions inserted one after another: each once, in ascending order of their keys. -/
theorem foldl_insertPos (m : Memory) (ps acc : List Nat) (hn : (acc ++ ps).Nodup)
    (hk : ∀ a ∈ acc ++ ps, ∀ b ∈ acc ++ ps, a ≠ b → sameKey (routeRow m a) (routeRow m b) = false)
    (hacc : acc.Pairwise (fun a b => keyLt (routeRow m a) (routeRow m b) = true)) :
    (ps.foldl (fun acc p => insertPos m p acc) acc).Perm (acc ++ ps) ∧
    (ps.foldl (fun acc p => insertPos m p acc) acc).Pairwise
      (fun a b => keyLt (routeRow m a) (routeRow m b) = true) := by
  induction ps generalizing acc with
  | nil => exact ⟨by simp, hacc⟩
  | cons p ps ih =>
    have hperm : (insertPos m p acc ++ ps).Perm (acc ++ p :: ps) :=
      ((insertPos_perm m p acc).append_right ps).trans List.perm_middle.symm
    obtain ⟨h1, h2⟩ := ih (insertPos m p acc) (hperm.nodup_iff.2 hn)
      (fun a ha b hb => hk a (hperm.mem_iff.1 ha) b (hperm.mem_iff.1 hb))
      (insertPos_ascends m p acc hacc (fun q hq => hk p (by simp) q (by simp [hq]) (fun e => by
        subst e
        exact (List.nodup_append.1 hn).2.2 p hq p (by simp) rfl)))
    exact ⟨h1.trans hperm, h2⟩

/-- The insertions lose and double no load position, whatever the keys. -/
theorem sortedPositions_perm (m : Memory) : (sortedPositions m).Perm (List.range (siteRoutes m)) := by
  have h : ∀ (ps acc : List Nat), (ps.foldl (fun acc p => insertPos m p acc) acc).Perm (acc ++ ps) := by
    intro ps
    induction ps with
    | nil => intro acc; simp
    | cons p ps ih =>
      intro acc
      exact (ih (insertPos m p acc)).trans
        (((insertPos_perm m p acc).append_right ps).trans List.perm_middle.symm)
  exact h (List.range (siteRoutes m)) []

theorem sortedPositions_length (m : Memory) : (sortedPositions m).length = siteRoutes m := by
  simpa using (sortedPositions_perm m).length_eq

theorem orElse_eq_none {α : Type} {o : Option α} {f : Unit → Option α} :
    o.orElse f = none ↔ o = none ∧ f () = none := by
  cases o <;> simp [Option.orElse]

/-- The tables' route count is within the Route Table and no two routes carry one key (R54, R56). -/
theorem checkTables_routes {m : Memory} (h : checkTables m = none) :
    siteRoutes m ≤ 384 ∧ ∀ a < siteRoutes m, ∀ b < siteRoutes m, a ≠ b →
      sameKey (routeRow m a) (routeRow m b) = false := by
  have hr : checkRoutes m = none := by
    simp only [checkTables, orElse_eq_none] at h
    exact h.2.2.1
  unfold checkRoutes at hr
  dsimp only at hr
  split at hr
  · next hin =>
    simp only [orElse_eq_none, Option.map_eq_none_iff, List.find?_eq_none, List.mem_range, List.any_eq_true,
      not_exists, not_and, Bool.not_eq_true] at hr
    refine ⟨by simp only [inRange, Bool.and_eq_true, decide_eq_true_eq] at hin; omega, fun a ha b hb hne => ?_⟩
    rcases Nat.lt_or_gt_of_ne hne with hlt | hlt
    · exact hr.2 b hb a hlt
    · rw [sameKey_comm]
      exact hr.2 a ha b hlt
  · cases hr

theorem sortedPositions_ascends {m : Memory} (h : checkTables m = none) :
    (sortedPositions m).Pairwise (fun a b => keyLt (routeRow m a) (routeRow m b) = true) := by
  obtain ⟨-, hk⟩ := checkTables_routes h
  exact (foldl_insertPos m (List.range (siteRoutes m)) [] (by simpa using List.nodup_range)
    (fun a ha b hb => hk a (by simpa using ha) b (by simpa using hb)) .nil).2

/-! ### The Table Store under the sort -/

/-- The bytes of equally long records one behind another. -/
theorem getD_flatten {n : Nat} (ls : List (List Byte)) (hl : ∀ x ∈ ls, x.length = n) (r j : Nat) (hj : j < n) :
    ls.flatten.getD (n * r + j) 0 = (ls.getD r []).getD j 0 := by
  induction ls generalizing r with
  | nil => simp
  | cons x ls ih =>
    have hx : x.length = n := hl x (by simp)
    cases r with
    | zero =>
      rw [List.flatten_cons, Nat.mul_zero, Nat.zero_add, List.getD_append _ _ _ _ (by omega)]
      simp
    | succ r =>
      rw [List.flatten_cons, List.getD_append_right _ _ _ _ (by rw [hx, Nat.mul_succ]; omega), hx,
        show n * (r + 1) + j - n = n * r + j by rw [Nat.mul_succ]; omega, ih (fun y hy => hl y (by simp [hy]))]
      simp

theorem length_flatten_eq {n : Nat} (ls : List (List Byte)) (hl : ∀ x ∈ ls, x.length = n) :
    ls.flatten.length = n * ls.length := by
  induction ls with
  | nil => simp
  | cons x ls ih =>
    rw [List.flatten_cons, List.length_append, hl x (by simp), ih (fun y hy => hl y (by simp [hy])), List.length_cons,
      Nat.mul_succ]
    omega

/-- The records of the Route Table in the order of the sort. -/
def sortedRecords (m : Memory) : List (List Byte) :=
  (sortedPositions m).map (fun p => Memory.bytes m (routeBase + 26 * p) 26)

theorem sortedRecords_length (m : Memory) : ∀ x ∈ sortedRecords m, x.length = 26 := by
  intro x hx
  obtain ⟨p, -, rfl⟩ := List.mem_map.1 hx
  simp [Memory.bytes]

theorem sortRoutes_eq (m : Memory) : sortRoutes m = Memory.writeAll m routeBase (sortedRecords m).flatten := rfl

/-- The sort writes the records of the Route Table only. -/
theorem read_sortRoutes_of_other {m : Memory} {a : Nat} (h : a < routeBase ∨ routeBase + 26 * siteRoutes m ≤ a) :
    Memory.read (sortRoutes m) a = Memory.read m a := by
  rw [sortRoutes_eq, Memory.read_writeAll, length_flatten_eq _ (sortedRecords_length m)]
  have hl : (sortedRecords m).length = siteRoutes m := by simp [sortedRecords, sortedPositions_length]
  rw [hl, if_neg (by omega)]

/-- The record at a route index is the one loaded at the position that the sort puts there. -/
theorem read_sortRoutes {m : Memory} {r p j : Nat} (hp : (sortedPositions m)[r]? = some p) (hj : j < 26) :
    Memory.read (sortRoutes m) (routeBase + (26 * r + j)) = Memory.read m (routeBase + (26 * p + j)) := by
  obtain ⟨hr, -⟩ := List.getElem?_eq_some_iff.1 hp
  rw [sortedPositions_length] at hr
  rw [sortRoutes_eq, Memory.read_writeAll, length_flatten_eq _ (sortedRecords_length m)]
  have hl : (sortedRecords m).length = siteRoutes m := by simp [sortedRecords, sortedPositions_length]
  rw [hl, if_pos (by omega), show routeBase + (26 * r + j) - routeBase = 26 * r + j by omega,
    getD_flatten _ (sortedRecords_length m) r j hj]
  have hrec : (sortedRecords m).getD r [] = Memory.bytes m (routeBase + 26 * p) 26 := by
    simp [sortedRecords, List.getD_eq_getElem?_getD, hp]
  rw [hrec]
  simp [Memory.bytes, List.getD_eq_getElem?_getD, hj, Nat.add_assoc]

/-- A route record is read from its 26 bytes. -/
theorem routeRow_congr {m m' : Memory} {r p : Nat}
    (h : ∀ j < 26, Memory.read m' (routeBase + (26 * r + j)) = Memory.read m (routeBase + (26 * p + j))) :
    routeRow m' r = routeRow m p := by
  have h0 := h 0 (by omega)
  simp only [Nat.add_zero] at h0
  simp only [routeRow, u8, u16, Nat.add_assoc, Nat.reduceAdd, h0, h, Nat.reduceLT]

theorem routeRow_sortRoutes {m : Memory} {r p : Nat} (hp : (sortedPositions m)[r]? = some p) :
    routeRow (sortRoutes m) r = routeRow m p := routeRow_congr (fun _ hj => read_sortRoutes hp hj)

end Sys2Proof.Machine

section

open Sys2Proof Sys2Proof.Machine

/-- Settles O29: the positions come out of the insertions in ascending order, each once, and each record is written where
its position stands. -/
theorem sortedRoutesAscend : Obligations.SortedRoutesAscend := by
  intro m h
  have hlen := sortedPositions_length m
  have at_ (r : Nat) (hr : r < siteRoutes m) : ∃ p, (sortedPositions m)[r]? = some p ∧ p < siteRoutes m := by
    refine ⟨_, List.getElem?_eq_getElem (by omega), ?_⟩
    exact List.mem_range.1 ((sortedPositions_perm m).mem_iff.1 (List.getElem_mem _))
  refine ⟨fun r hr => ?_, fun r hr => ?_, fun p hp => ?_⟩
  · rw [routeRow_sortRoutes (List.getElem?_eq_getElem (by omega : r < (sortedPositions m).length)),
      routeRow_sortRoutes (List.getElem?_eq_getElem (by omega : r + 1 < (sortedPositions m).length))]
    exact List.pairwise_iff_getElem.1 (sortedPositions_ascends h) r (r + 1) _ _ (by omega)
  · obtain ⟨p, hp, hlt⟩ := at_ r hr
    exact ⟨p, hlt, routeRow_sortRoutes hp⟩
  · obtain ⟨r, hr, he⟩ := List.getElem_of_mem ((sortedPositions_perm m).mem_iff.2 (List.mem_range.2 hp))
    exact ⟨r, by omega, routeRow_sortRoutes (List.getElem?_eq_some_iff.2 ⟨hr, he⟩)⟩

end

/-! PROOFS. Loading and verification of the tables, and the return to MAINTENANCE. -/

namespace Sys2Proof.Machine

/-- The reports of an event change the report queue alone. -/
theorem State.reporting_reports (u : State) (os : List Offer) : u.reporting os = u.withReportsOf (u.reporting os) :=
  State.foldl_offer_reports _ u

/-! ### The end of an event without routes -/

/-- Without element records nothing is handed on. -/
theorem Ev.settle_of_untabled {ev : Ev} (hv : ev.s.tablesValid = false) (hr : ev.reached = [])
    (hf : ∀ r, (ev.s.route r).state ≠ .cleared) (hm : ev.s.mask = ev.before.mask) :
    ev.settle = ev.s.reporting ev.offers := by
  have hi : ev.s.elemIndices = [] := by simp [State.elemIndices, State.elemCount, hv]
  rw [Ev.settle_of_still ev (by simp [changedElems, hi]) hr (fun r h => absurd h (hf r)) (by simp [hi]),
    Ev.commit_of_mask hm]

theorem Ev.handToSetting_of_free {ev : Ev} (hc : ∀ c < 4, ev.s.ctx c = none) : ev.handToSetting = ev := by
  refine foldl_id _ _ _ (fun c hm => ?_)
  have : ev.s.ctx c = none := hc c (by simp [contextNumbers] at hm; omega)
  unfold Ev.handToCtx
  rw [this]

theorem Ev.monitor_of_free {ev : Ev} (hf : ∀ r, (ev.s.route r).state = .free) : ev.monitor = ev := by
  have hr : ev.reachedRoutes = [] := by simp [Ev.reachedRoutes, hf, RState.inMonitor]
  unfold Ev.monitor
  rw [hr]
  exact foldl_id _ _ _ (fun r _ => by simp [Ev.settleAspect, hf])

/-- With every context and every route FREE, the hand-on of an event reaches nobody. -/
theorem Ev.handed_of_idle {ev : Ev} (hc : ∀ c < 4, ev.s.ctx c = none) (hf : ∀ r, (ev.s.route r).state = .free) :
    ev.handed = ev.s := by
  unfold Ev.handed
  rw [Ev.handToSetting_of_free hc, Ev.monitor_of_free hf]

theorem Ev.settle_of_idle {ev : Ev} (hc : ∀ c < 4, ev.s.ctx c = none) (hf : ∀ r, (ev.s.route r).state = .free) :
    ev.settle = { ev.s.withReportsOf ev.settle with sent := ev.settle.sent } := by
  have h := ev.settle_handed
  rwa [Ev.handed_of_idle hc hf] at h

theorem Ev.commit_sent (ev : Ev) : ev.commit.sent = ev.s.sent := by
  rw [Ev.commit_reports]
  rfl

/-- Nothing is sent down where no commanded state changed. -/
theorem Ev.settle_sent_of_idle {ev : Ev} (hc : ∀ c < 4, ev.s.ctx c = none) (hf : ∀ r, (ev.s.route r).state = .free)
    (hm : ∀ e, commandChanged ev.before ev.s e = false) : ev.settle.sent = ev.s.sent := by
  have hs : ev.sendChanges = ev := by
    have : ev.s.elemIndices.filter (commandChanged ev.before ev.s) = [] := by simp [hm]
    unfold Ev.sendChanges Ev.on
    rw [this]
    rfl
  unfold Ev.settle
  rw [Ev.handToSetting_of_free hc, Ev.monitor_of_free hf, hs]
  dsimp only
  rw [Ev.commit_sent, foldl_handToCpc_s]

/-! ### The tables-valid mark -/

/-- The tables-valid mark is cleared: where it was set, the map is empty and the records of the elements, the life
counts and the transactions are dropped (R179 step 2). -/
theorem State.clearValid_eq (s : State) : s.clearValid = { s with
    tablesValid := false
    dmap := if s.tablesValid then [] else s.dmap
    elems := if s.tablesValid then [] else s.elems
    life := if s.tablesValid then [] else s.life
    trans := if s.tablesValid then [] else s.trans } := by
  unfold State.clearValid State.dropTables
  cases hv : s.tablesValid with
  | true => rfl
  | false =>
    cases s
    subst hv
    rfl

theorem State.loadSegment_eq (s : State) (p : List Byte) : s.loadSegment p = { s.clearValid with
    store := Memory.writeAll s.store (tableBase (byteAt p 0) + recordSize (byteAt p 0) * (halfAt p 1).toNat)
      (p.drop 3) } := by
  have h : s.clearValid.store = s.store := by rw [State.clearValid_eq]
  unfold State.loadSegment
  dsimp only
  rw [h]

/-- The state of verified tables before the blocked set and the aux counter are cleared (R181 steps 1 to 5). -/
theorem State.installTables_eq (s : State) : s.installTables = { s with
    store := sortRoutes s.store
    storedCrc := tableCrc (sortRoutes s.store)
    dmap := buildMap (sortRoutes s.store)
    tablesValid := true
    trans := []
    elems := if s.tablesValid then [] else s.elems
    life := if s.tablesValid then [] else s.life } := by
  unfold State.installTables State.dropTables
  cases hv : s.tablesValid <;> rfl

/-- A Verify Tables that passes (R181). -/
theorem Ev.verify_of_sound {s : State} {p : List Byte} (tag : Half)
    (hc : tableCrc s.store = word32 (byteAt p 0) (byteAt p 1) (byteAt p 2) (byteAt p 3))
    (hk : checkTables s.store = none) : Ev.verify tag p (Ev.asked s) =
      (⟨(s.taken .c).installTables, { (s.taken .c).installTables with blocked := [], auxCounter := 0 },
        s.linkOffers .c, []⟩ : Ev).reply .verifyTables tag .accepted (.crc (tableCrc (sortRoutes s.store))) := by
  have hk' : checkTables (Ev.asked s).s.store = none := hk
  have hv : Ev.verify tag p (Ev.asked s) = Ev.verified tag (Ev.asked s) := by
    refine (if_pos hc).trans ?_
    rw [hk']
  have hs : ((s.taken .c).installTables).storedCrc = tableCrc (sortRoutes s.store) := by
    rw [State.installTables_eq]
    rfl
  rw [hv, ← hs]
  rfl

/-- What the checked tables say of the byte addresses beyond the Route Table's records. -/
theorem Memory.wf_sortRoutes {m : Memory} (h : Memory.wf m = true) : Memory.wf (sortRoutes m) = true :=
  Memory.wf_writeAll _ _ _ h

/-! ### The return to MAINTENANCE -/

theorem State.idleRoutes_spec {s : State} (h : s.idleRoutes = true) :
    (∀ r, (s.route r).state = .free) ∧ (∀ c < 4, s.ctx c = none) ∧ ∀ e < s.elemCount, (s.transOf e).state = .idle := by
  simp only [State.idleRoutes, Bool.and_eq_true, List.isEmpty_iff, List.all_eq_true, Option.isNone_iff_eq_none,
    beq_iff_eq] at h
  obtain ⟨⟨ha, hc⟩, ht⟩ := h
  refine ⟨fun r => ?_, fun c hlt => hc c ?_, fun e he => ht e (List.mem_range.2 he)⟩
  · by_contra hne
    have := s.mem_activeRoutes r hne
    simp [ha] at this
  · simp only [contextNumbers, List.mem_cons, List.not_mem_nil, or_false]
    omega

/-- The points that R183 commands to HOLD. -/
def State.throwingPoints (s : State) : List Nat :=
  s.elemIndices.filter (fun e => s.kind e == some .point && (s.elem e).pointCmd != .hold)

theorem State.pointsToHold_eq (s : State) : s.pointsToHold = s.throwingPoints.foldl State.commandHold s := rfl

theorem State.mem_throwingPoints (s : State) (e : Nat) :
    e ∈ s.throwingPoints ↔ s.kind e = some .point ∧ (s.elem e).pointCmd ≠ .hold := by
  simp only [State.throwingPoints, State.elemIndices, List.mem_filter, List.mem_range, Bool.and_eq_true, beq_iff_eq,
    bne_iff_ne, ne_eq, and_iff_right_iff_imp, and_imp]
  intro hk _
  by_contra hlt
  simp [State.kind, hlt] at hk

theorem State.elem_foldl_commandHold (es : List Nat) (s : State) (k : Nat) :
    (es.foldl State.commandHold s).elem k =
      if k ∈ es then { s.elem k with pointCmd := .hold, watch := none } else s.elem k := by
  induction es generalizing s with
  | nil => simp
  | cons e es ih =>
    rw [List.foldl_cons, ih, State.commandHold, State.elem_modElem]
    by_cases hk : k = e
    · subst hk; simp
    · simp [hk]

theorem State.foldl_commandHold_frame (es : List Nat) (s : State) :
    es.foldl State.commandHold s = { s with elems := (es.foldl State.commandHold s).elems } := by
  induction es generalizing s with
  | nil => rfl
  | cons e es ih => exact ih (s.commandHold e)

theorem State.throwingPoints_congr {s t : State} (h1 : t.store = s.store) (h2 : t.tablesValid = s.tablesValid)
    (h3 : t.elems = s.elems) : t.throwingPoints = s.throwingPoints := by
  simp only [State.throwingPoints, State.elemIndices, State.elemCount, State.kind_congr h1 h2, State.elem, h1, h2, h3]

/-- A pending auxiliary command is gone, with its window timer (R161). -/
def State.withoutAux (s : State) : State :=
  { s with auxPending := none, auxTimer := if s.auxPending = none then s.auxTimer else none }

theorem Ev.endAux_eq (ev : Ev) (x : AuxEvent) :
    ∃ os, ev.endAux x = ⟨ev.before, ev.s.withoutAux, ev.offers ++ os, ev.reached⟩ := by
  cases ha : ev.s.auxPending with
  | none =>
    refine ⟨[], ?_⟩
    rw [Ev.endAux_of_none ha, State.withoutAux, if_pos ha, ← ha, List.append_nil]
  | some old =>
    refine ⟨[ev.s.auxOffer old x], ?_⟩
    rw [Ev.endAux_of_some ha, State.withoutAux, if_neg (by simp [ha])]
    rfl

/-- The mode is MAINTENANCE (R182). -/
def State.maintaining (s : State) : State := { s with mode := .maintenance, safeN := false }

/-- The state in which the points are put to HOLD (R185). -/
def State.leaving (s : State) (tag : Half) : State :=
  ((s.taken .c).replying .leaveOperation tag .accepted .none).maintaining.withoutAux

theorem Ev.asked_leaveOperation {s : State} (tag : Half) (h : s.idleRoutes = true) :
    ∃ os, Ev.leaveOperation tag (Ev.asked s) = ⟨s, (s.leaving tag).pointsToHold, os, []⟩ := by
  have hb : Ev.leaveOperation tag (Ev.asked s) = ((((Ev.asked s).answer .leaveOperation tag .accepted).enterMode
      .maintenance .leaveOperation).endAux (.discarded .modeChange)).on State.pointsToHold := if_pos h
  have hmode : ((Ev.asked s).answer .leaveOperation tag .accepted).enterMode .maintenance .leaveOperation =
      ⟨s, ((s.taken .c).replying .leaveOperation tag .accepted .none).maintaining,
        s.linkOffers .c ++ [⟨.route, .mode (some s.mode) .maintenance .leaveOperation⟩], []⟩ := rfl
  obtain ⟨os, hos⟩ := Ev.endAux_eq (((Ev.asked s).answer .leaveOperation tag .accepted).enterMode .maintenance
    .leaveOperation) (.discarded .modeChange)
  rw [hb, hos, hmode]
  exact ⟨_, rfl⟩

@[simp] theorem State.withoutAux_others (s : State) :
    s.withoutAux.store = s.store ∧ s.withoutAux.tablesValid = s.tablesValid ∧ s.withoutAux.elems = s.elems ∧
    s.withoutAux.routes = s.routes ∧ s.withoutAux.contexts = s.contexts ∧ s.withoutAux.sent = s.sent := by
  and_intros <;> rfl

@[simp] theorem State.maintaining_others (s : State) :
    s.maintaining.store = s.store ∧ s.maintaining.tablesValid = s.tablesValid ∧ s.maintaining.elems = s.elems ∧
    s.maintaining.routes = s.routes ∧ s.maintaining.contexts = s.contexts ∧ s.maintaining.sent = s.sent := by
  and_intros <;> rfl

@[simp] theorem State.leaving_others (s : State) (tag : Half) :
    (s.leaving tag).store = s.store ∧ (s.leaving tag).tablesValid = s.tablesValid ∧
    (s.leaving tag).elems = s.elems ∧ (s.leaving tag).routes = s.routes ∧
    (s.leaving tag).contexts = s.contexts ∧
    (s.leaving tag).sent = s.sent ++ [⟨.c, .reply 0x03 0x04 tag .accepted .none⟩] := by
  simp [State.leaving, State.replying, Req.cls, ReqClass.code, Req.code]

/-- A request of MAINTENANCE whose event leaves no tables valid ends with its Reply and its reports. -/
theorem Ev.settle_of_answered {s u : State} (q : Req) (tag : Half) (code : ReplyCode) (data : ReplyData)
    (hv : u.tablesValid = false) (hf : ∀ r, (u.route r).state = .free) (hm : u.mask = s.mask) (os : List Offer) :
    ((⟨s, u, os, []⟩ : Ev).reply q tag code data).settle = (u.replying q tag code data).reporting os :=
  Ev.settle_of_untabled (ev := ⟨s, u.replying q tag code data, os, []⟩) hv rfl
    (fun r h => by
      have := hf r
      have hr : (u.replying q tag code data).route r = u.route r := rfl
      rw [hr, this] at h
      cases h)
    hm

end Sys2Proof.Machine

section

open Sys2Proof Sys2Proof.Machine

/-- Settles O26: the bytes are written where R193 puts them, and the mark is cleared with what hangs on it. -/
theorem loadSegmentWritesRecords : Obligations.LoadSegmentWritesRecords := by
  intro tag p s ha hf first
  have hexec : exec (.loadTableSegment tag p) s = .next
      (((s.taken .c).loadSegment p).replying .loadTableSegment tag .accepted .none |>.reporting (s.linkOffers .c)) := by
    refine congrArg Host.Outcome.next ((takeRequest_asked tag _ ha).trans ?_)
    refine Ev.settle_of_answered (s := s) (u := (s.taken .c).loadSegment p) .loadTableSegment tag .accepted .none ?_ ?_
      ?_ (s.linkOffers .c)
    · rw [State.loadSegment_eq, State.clearValid_eq]
    · rw [State.loadSegment_eq, State.clearValid_eq]
      exact hf
    · rw [State.loadSegment_eq, State.clearValid_eq]
      rfl
  refine ⟨_, hexec, ?_⟩
  have hr := State.reporting_reports (((s.taken .c).loadSegment p).replying .loadTableSegment tag .accepted .none)
    (s.linkOffers .c)
  generalize State.reporting _ _ = t at hr ⊢
  rw [State.loadSegment_eq, State.clearValid_eq] at hr
  have hstore : t.store = Memory.writeAll s.store first (p.drop 3) := by
    rw [hr]
    rfl
  refine ⟨fun a => ?_, fun hw => ?_, ?_⟩
  · rw [hstore, Memory.read_writeAll, List.length_drop]
    split
    · simp [byteAt, List.getD_eq_getElem?_getD, List.getElem?_drop]
    · rfl
  · rw [hstore]
    exact Memory.wf_writeAll _ _ _ hw
  · rw [hstore]
    exact hr

/-- Settles O27: either failure clears the mark, with what hangs on it, and answers. -/
theorem verifyTablesFails : Obligations.VerifyTablesFails := by
  intro tag p s ha hf given failed
  have hexec (code : ReplyCode) (data : ReplyData)
      (hb : Ev.verify tag p (Ev.asked s) = ((Ev.asked s).on State.clearValid).reply .verifyTables tag code data) :
      exec (.verifyTables tag p) s = .next ((failed code data).reporting (s.linkOffers .c)) := by
    refine congrArg Host.Outcome.next (((takeRequest_asked tag _ ha).trans (congrArg Ev.settle hb)).trans ?_)
    refine (Ev.settle_of_answered (s := s) (u := (s.taken .c).clearValid) .verifyTables tag code data ?_ ?_ ?_
      (s.linkOffers .c)).trans ?_
    · rw [State.clearValid_eq]
    · rw [State.clearValid_eq]
      exact hf
    · rw [State.clearValid_eq]
      rfl
    · rw [State.clearValid_eq]
      rfl
  refine ⟨fun hc => hexec _ _ (if_neg hc), fun table pos hc hbad => hexec _ _ ((if_pos hc).trans ?_)⟩
  have hbad' : checkTables (Ev.asked s).s.store = some (table, pos) := hbad
  rw [hbad']

/-- Settles O28: the tables are sorted and installed; with every route and context FREE the event hands nothing on. -/
theorem verifyTablesSucceeds : Obligations.VerifyTablesSucceeds := by
  intro tag p s ha hf hctx hc hk
  have hexec : exec (.verifyTables tag p) s = .next (Ev.verify tag p (Ev.asked s)).settle :=
    congrArg Host.Outcome.next (takeRequest_asked tag _ ha)
  rw [Ev.verify_of_sound tag hc hk] at hexec
  refine ⟨_, hexec, ?_⟩
  generalize hev : Ev.reply _ _ _ _ _ = ev
  have hs : ev.s = { (s.taken .c) with
      store := sortRoutes s.store, storedCrc := tableCrc (sortRoutes s.store), dmap := buildMap (sortRoutes s.store),
      tablesValid := true, blocked := [], auxCounter := 0, trans := [],
      elems := if s.tablesValid then [] else s.elems, life := if s.tablesValid then [] else s.life,
      sent := s.sent ++ [⟨.c, .reply 0x03 0x02 tag .accepted (.crc (tableCrc (sortRoutes s.store)))⟩] } := by
    rw [← hev, State.installTables_eq]
    rfl
  have hctx' : ∀ c < 4, ev.s.ctx c = none := by
    rw [hs]
    exact hctx
  have hf' : ∀ r, (ev.s.route r).state = .free := by
    rw [hs]
    exact hf
  have hcmd : ∀ e, commandChanged ev.before ev.s e = false := by
    have hsame : ev.s.elems = ev.before.elems := by
      rw [← hev]
      rfl
    intro e
    have he : ev.s.elem e = ev.before.elem e := by simp only [State.elem, hsame]
    unfold commandChanged
    split <;> simp [he]
  have hsent := Ev.settle_sent_of_idle hctx' hf' hcmd
  have ht := Ev.settle_of_idle hctx' hf'
  rw [hsent, hs] at ht
  have hstore : ev.settle.store = sortRoutes s.store := by
    rw [ht]
    rfl
  refine ⟨fun a h => ?_, fun hw => ?_, ht⟩
  · rw [hstore, read_sortRoutes_of_other h]
  · rw [hstore]
    exact Memory.wf_sortRoutes hw

/-- Settles O30: BUSY_ROUTES where something is not at rest; else the mode, the auxiliary command and the points. -/
theorem leaveOperation : Obligations.LeaveOperation := by
  refine ⟨fun tag p s ha hbusy => ?_, fun tag p s ha hidle => ?_⟩
  · have hidle : s.idleRoutes ≠ true := by
      intro h
      obtain ⟨hr, hc, ht⟩ := State.idleRoutes_spec h
      rcases hbusy with ⟨r, hb⟩ | ⟨c, hlt, hb⟩ | ⟨e, hlt, hb⟩
      · exact hb (hr r)
      · exact hb (hc c hlt)
      · exact hb (ht e hlt)
    have hb : Ev.leaveOperation tag (Ev.asked s) = (Ev.asked s).answer .leaveOperation tag .busyRoutes := if_neg hidle
    refine congrArg Host.Outcome.next ((takeRequest_asked tag _ ha).trans ?_)
    rw [hb, Ev.asked_answer_settle]
  · obtain ⟨hr, hc, -⟩ := State.idleRoutes_spec hidle
    obtain ⟨os, hb⟩ := Ev.asked_leaveOperation tag hidle
    have hexec : exec (.leaveOperation tag p) s = .next (Ev.leaveOperation tag (Ev.asked s)).settle :=
      congrArg Host.Outcome.next (takeRequest_asked tag _ ha)
    rw [hb] at hexec
    refine ⟨_, hexec, ?_⟩
    generalize hev : (⟨s, (s.leaving tag).pointsToHold, os, []⟩ : Ev) = ev
    have hs : ev.s = { s.leaving tag with elems := (s.leaving tag).pointsToHold.elems } := by
      rw [← hev]
      exact State.foldl_commandHold_frame _ _
    have hc' : ∀ c < 4, ev.s.ctx c = none := by
      simpa [hs, State.ctx] using hc
    have hr' : ∀ r, (ev.s.route r).state = .free := by
      simpa [hs, State.route] using hr
    have hpoints : (s.leaving tag).throwingPoints = s.throwingPoints := State.throwingPoints_congr (by simp) (by simp) (by simp)
    have helem (e : Nat) : ev.settle.elem e =
        if e ∈ s.throwingPoints then { s.elem e with pointCmd := .hold, watch := none } else s.elem e := by
      rw [Ev.settle_elem, Ev.handed_of_idle hc' hr', ← hev]
      have h := State.elem_foldl_commandHold (s.leaving tag).throwingPoints (s.leaving tag) e
      simpa [hpoints, State.pointsToHold_eq, State.elem] using h
    have ht := Ev.settle_of_idle hc' hr'
    have hsent := (Ev.settle_handedOn ev).sent
    rw [hs] at ht hsent
    have helems : ev.settle.elems = (s.leaving tag).pointsToHold.elems := by
      rw [ht]
      rfl
    refine ⟨fun e hk => ⟨?_, fun hcmd => ?_⟩, fun e hk => ?_, ?_, ?_⟩
    · rw [helem]
      split
      · rfl
      · next hn =>
        rw [State.mem_throwingPoints] at hn
        simpa [hk] using hn
    · rw [helem, if_pos ((s.mem_throwingPoints e).2 ⟨hk, hcmd⟩)]
    · rw [helem, if_neg (fun hm => hk ((s.mem_throwingPoints e).1 hm).1)]
    · simpa using hsent
    · rw [helems]
      refine ht.trans ?_
      simp only [State.leaving, State.withoutAux, State.maintaining, State.replying, State.send,
        State.withReportsOf, State.takenC_reads, State.taken_others]
      rfl

end


/-! PROOFS. A state that meets both invariants and whose next state does not meet State.Owned. Neither invariant says that
the element records stand in canonical form (as routesWf says of the routes). In a list with two records of one element
the second is read by no rule, but State.lockedBy lists it: the full release of the route that it names then clears the
lock that the first one holds. -/

namespace Sys2Proof.Machine

/-- Route 0, an ENTRY route in SETTING, holds its start BORDER element 0 locked; behind that record stands a second one
of the same element, locked by route 1, whose approach timer has expired. -/
def State.doubled : State :=
  { store := [(0, 4), (3, 1), (4613, 4), (130305, 1), (130307, 2)]
    tablesValid := true
    mode := .operational
    safeN := true
    elems := [(0, { lockOwner := some 0 }), (0, { lockOwner := some 1 })]
    contexts := [(0, some { route := 0, awaited := [], reply := false, offerRef := none })]
    routes := [(0, { state := .setting, context := some 0 }),
               (1, { state := .cancelling, timer := some 0, purpose := .approach })]
    timers := [(0, some { owner := 1, purpose := .approach,
                          timer := { rate := 0, count := 0, bornAt := none, expired := true } })] }

/-- The expiry is the next command. -/
def State.doubledExpiring : State := { State.doubled with pending := [.releaseTimerExpiry 0] }

/-- The event of the expiry. -/
def Ev.doubledExpiry : Ev :=
  (Ev.start State.doubled).releaseExpiry 0
    { owner := 1, purpose := .approach, timer := { rate := 0, count := 0, bornAt := none, expired := true } }

theorem step_doubledExpiring : step State.doubledExpiring = .next Ev.doubledExpiry.settle := rfl

/-- After the expiry route 0 is still SETTING, and its start element is locked by no route. -/
theorem Ev.doubledExpiry_handed : (Ev.doubledExpiry.handed.route 0).state = .setting ∧
    (Ev.doubledExpiry.handed.elem 0).lockOwner = none := by decide +kernel

theorem Ev.doubledExpiry_tables : Ev.doubledExpiry.settle.routeKind 0 = some .entry ∧
    (Ev.doubledExpiry.settle.rrow 0).start = 0 := by
  obtain ⟨-, hstore, -, hvalid, -⟩ := Ev.doubledExpiry.settle_handedOn.fields
  have hstart : Ev.doubledExpiry.s.routeKind 0 = some .entry ∧ (Ev.doubledExpiry.s.rrow 0).start = 0 := by decide +kernel
  simp only [State.routeKind, State.routeCount, State.rrow, hstore, hvalid]
  exact hstart

/-! ### The state meets both invariants -/

/-- The routes' records, case by case. -/
theorem State.doubled_routes {P : Nat → RouteRec → Prop} (h0 : P 0 { state := .setting, context := some 0 })
    (h1 : P 1 { state := .cancelling, timer := some 0, purpose := .approach }) (hr : ∀ r, P r {}) (r : Nat) :
    P r (State.doubledExpiring.route r) := by
  have hroute : State.doubledExpiring.route r = if r = 0 then { state := .setting, context := some 0 }
    else if r = 1 then { state := .cancelling, timer := some 0, purpose := .approach } else {} := rfl
  rw [hroute]
  split
  · next h => exact h ▸ h0
  · split
    · next h => exact h ▸ h1
    · exact hr r

/-- The held timer whose expiry is to be delivered. -/
def doubledTimer : HeldTimer :=
  { owner := 1, purpose := .approach, timer := { rate := 0, count := 0, bornAt := none, expired := true } }

/-- The context of route 0. -/
def doubledCtx : Ctx := { route := 0, awaited := [], reply := false, offerRef := none }

theorem State.doubled_reads :
    (∀ e, State.doubledExpiring.elem e =
      if e = 0 then { lockOwner := some 0 } else if e = 0 then { lockOwner := some 1 } else {}) ∧
    (∀ c, State.doubledExpiring.ctx c = if c = 0 then some doubledCtx else none) ∧
    (∀ c, State.doubledExpiring.ctxTimer c = none) ∧ (∀ e, State.doubledExpiring.transOf e = {}) ∧
    (∀ i, State.doubledExpiring.timerOf i = if i = 0 then some doubledTimer else none) :=
  ⟨fun _ => rfl, fun _ => rfl, fun _ => rfl, fun _ => rfl, fun _ => rfl⟩

theorem State.doubled_routeCount : State.doubledExpiring.routeCount = 2 := by decide +kernel

theorem State.doubled_inv : State.doubledExpiring.Inv where
  store := by decide +kernel
  queue := by decide
  queueOne := by simp [State.doubledExpiring, State.doubled]
  requests := by decide
  safeN := by decide
  tick := by decide
  lost := by decide
  auxTimer := rfl
  auxMode := by decide
  startup := by decide
  map h := by simp [State.doubledExpiring, State.doubled] at h
  tables _ := rfl
  routes h := by simp [State.doubledExpiring, State.doubled] at h
  contexts h := by simp [State.doubledExpiring, State.doubled] at h

theorem State.doubled_owned : State.doubledExpiring.Owned := by
  obtain ⟨helem, hctx, hctxTimer, htrans, htimer⟩ := State.doubled_reads
  have hkind : ∀ r, State.doubledExpiring.routeKind r = some .entry → r = 0 := by
    intro r h
    by_contra hr
    have hlt : r < 2 := by
      by_contra hge
      have : State.doubledExpiring.routeKind r = none := if_neg (by simpa [State.doubled_routeCount] using hge)
      simp [this] at h
    obtain rfl : r = 1 := by omega
    revert h
    decide +kernel
  have hone (r q : Nat) (hr : State.doubledExpiring.routeKind r = some .entry)
      (hq : State.doubledExpiring.routeKind q = some .entry) : r = q := (hkind r hr).trans (hkind q hq).symm
  exact {
    routesWf := by decide
    tables := fun r hr => by
      rw [State.doubled_routeCount] at hr
      interval_cases r
      · exact ⟨fun h => absurd h (by decide +kernel), fun _ => (by decide +kernel), fun x hx => (by cases hx)⟩
      · exact ⟨fun h => absurd h (by decide +kernel), fun h => absurd h (by decide +kernel), fun x hx => (by cases hx)⟩
    inForce := by
      rw [State.doubled_routeCount]
      exact State.doubled_routes (P := fun r w => w.state ≠ .free → r < 2) (by simp) (by simp) (by simp)
    free := State.doubled_routes (P := fun _ w => w.state = .free → w = {}) (by simp) (by simp) (by simp)
    waiting := State.doubled_routes
      (P := fun _ w => w.state = .queued ∨ w.state = .setting → w.timer = none ∧ w.deferred = false)
      (by simp) (by simp) (by simp)
    requests := State.doubled_routes (P := fun r w => w.state = .queued ↔ ∃ q ∈ ([] : List Request), q.route = r)
      (by simp) (by simp) (by simp)
    requestsOnce := by decide
    context := fun c x h => by
      rw [hctx] at h
      split at h
      · next hc =>
        cases h
        exact hc ▸ ⟨by omega, rfl, rfl⟩
      · cases h
    setting := State.doubled_routes (P := fun r w => w.state = .setting → ∃ c x, State.doubledExpiring.ctx c = some x ∧
      x.route = r) (fun _ => ⟨0, doubledCtx, rfl, rfl⟩) (by simp) (by simp)
    noContext := State.doubled_routes (P := fun _ w => w.state ≠ .setting → w.context = none) (by simp) (by simp)
      (by simp)
    stopped := fun c _ => hctxTimer c
    claims := fun e => by
      have hclaims : State.doubledExpiring.claimsOn e = 0 := rfl
      rw [helem, hclaims]
      split <;> rfl
    noClaims := State.doubled_routes (P := fun _ w => w.state = .queued → w.flank = []) (by simp) (by simp) (by simp)
    timer := fun i h hi => by
      rw [htimer] at hi
      split at hi
      · next h0 =>
        cases hi
        exact h0 ▸ ⟨rfl, rfl⟩
      · cases hi
    timerHeld := State.doubled_routes (P := fun r w => ∀ i, w.timer = some i →
      ∃ h, State.doubledExpiring.timerOf i = some h ∧ h.owner = r) (by simp) (fun i hi => by cases hi; exact
        ⟨doubledTimer, rfl, rfl⟩) (by simp)
    deferred := State.doubled_routes (P := fun r w => w.deferred = true ↔ ∃ x ∈ ([] : List Waiting), x.route = r)
      (by simp) (by simp) (by simp)
    deferredHolds := State.doubled_routes (P := fun _ w => w.deferred = true → w.timer = none) (by simp) (by simp)
      (by simp)
    waitOnce := by decide
    waitPurpose := fun w hw => by cases hw
    offered := fun e => by
      rw [htrans]
      refine ⟨fun h => (by cases h), ?_⟩
      rintro ⟨c, x, hx, hr, -⟩
      rw [hctx] at hx
      split at hx
      · cases hx
        cases hr
      · cases hx
    offerLocks := fun c x hx => by
      rw [hctx] at hx
      split at hx
      · cases hx
        exact ⟨fun h => (by cases h), fun h => absurd rfl h⟩
      · cases hx
    entryLocks := fun r hk _ => by
      obtain rfl := hkind r hk
      decide +kernel
    entryOnce := fun e r q hr hq => hone r q hr.1 hq.1
    entryHeld := fun e r h => by
      rw [htrans] at h
      cases h
    outside := fun h => absurd rfl h }

end Sys2Proof.Machine

section

open Sys2Proof Sys2Proof.Machine

/-- Refutes O7: from State.doubledExpiring the expiry of route 1's timer leaves the SETTING ENTRY route 0 without the lock
on its start element, against entryLocks. -/
theorem not_stepKeepsOwnership : ¬ Obligations.StepKeepsOwnership := by
  intro h
  have howned := h _ _ State.doubled_inv State.doubled_owned step_doubledExpiring
  obtain ⟨hset, hlock⟩ := Ev.doubledExpiry_handed
  obtain ⟨hkind, hstart⟩ := Ev.doubledExpiry_tables
  have hheld := howned.entryLocks 0 hkind (by rw [Ev.settle_route, hset])
  rw [hstart, Ev.settle_elem, hlock] at hheld
  cases hheld

end

/-! PROOF SUPPORT. Which operations make a route CLEARED, or take one out of FREE: `Tame u t` holds of what the Setting
Engine, the Route Monitor and the Border Links do in an event. Only a route's clearing makes it CLEARED, and that needs the
mode OPERATIONAL; only a completing context takes a route out of a state that may be FREE. -/

namespace Sys2Proof.Machine

/-- The hand-on relation with what becomes of the routes' states. -/
structure State.Tame (u t : State) : Prop where
  handed : HandedOn u t
  cleared : u.mode ≠ .operational → ∀ r, (t.route r).state = .cleared → (u.route r).state = .cleared
  free : (∀ c < 4, u.ctx c = none) → ∀ r, (u.route r).state = .free → (t.route r).state = .free

theorem State.Tame.refl (u : State) : u.Tame u := ⟨.refl u, fun _ _ h => h, fun _ _ h => h⟩

theorem HandedOn.mode {u t : State} (h : HandedOn u t) : t.mode = u.mode := by
  rw [h.frame]
  rfl

theorem State.Tame.trans {u v t : State} (h : u.Tame v) (k : v.Tame t) : u.Tame t where
  handed := h.handed.trans k.handed
  cleared hm r hr := h.cleared hm r (k.cleared (by rwa [h.handed.mode]) r hr)
  free hc r hr := k.free (fun c hlt => h.handed.ctx c (hc c hlt)) r (h.free hc r hr)

/-- Transitivity where the middle state is only definitionally the same. -/
theorem State.Tame.via {u v v' t : State} (h : u.Tame v) (k : v'.Tame t) (e : v = v' := by rfl) : u.Tame t :=
  h.trans (e ▸ k)

theorem State.Tame.foldl {α β : Type} (p : β → State) (f : β → α → β) (h : ∀ b a, (p b).Tame (p (f b a))) (l : List α)
    (b : β) : (p b).Tame (p (l.foldl f b)) := by
  induction l generalizing b with
  | nil => exact .refl _
  | cons a l ih => exact (h b a).trans (ih _)

/-- An operation that leaves every route in its state. -/
theorem HandedOn.tame {u t : State} (h : HandedOn u t) (hs : ∀ r, (t.route r).state = (u.route r).state) : u.Tame t :=
  ⟨h, fun _ r hr => by rwa [hs] at hr, fun _ r hr => by rwa [hs]⟩

theorem HandedOn.tame_of_routes {u t : State} (h : HandedOn u t) (hr : t.routes = u.routes) : u.Tame t :=
  h.tame (fun r => by rw [State.route, State.route, hr])

/-- A route's record is written without its state. -/
theorem State.modRoute_state (s : State) (r : Nat) (f : RouteRec → RouteRec) (k : Nat)
    (hf : ∀ w, (f w).state = w.state := by exact fun _ => rfl) :
    ((s.modRoute r f).route k).state = (s.route k).state := by
  rw [State.route_modRoute]
  split
  · next h => rw [hf, h]
  · rfl

theorem State.modRoute_tame (s : State) (r : Nat) (f : RouteRec → RouteRec)
    (hf : ∀ w, (f w).state = w.state := by exact fun _ => rfl) : s.Tame (s.modRoute r f) :=
  (s.modRoute_handedOn r f).tame (fun k => s.modRoute_state r f k hf)

/-- A route that is not FREE goes to another state than CLEARED. -/
theorem State.modRoute_tame_of_active (s : State) (r : Nat) (f : RouteRec → RouteRec) (hs : (s.route r).state ≠ .free)
    (hf : (f (s.route r)).state ≠ .cleared) : s.Tame (s.modRoute r f) where
  handed := s.modRoute_handedOn r f
  cleared _ k hk := by
    rw [State.route_modRoute] at hk
    split at hk
    · exact absurd hk hf
    · exact hk
  free _ k hk := by
    rw [State.route_modRoute]
    split
    · next h => exact absurd (h ▸ hk) hs
    · exact hk

/-- A route becomes FREE. -/
theorem State.freeRoute_tame (s : State) (r : Nat) : s.Tame (s.setRoute r {}) where
  handed := s.setRoute_handedOn r {}
  cleared _ k hk := by
    rw [State.route_setRoute] at hk
    split at hk
    · cases hk
    · exact hk
  free _ k hk := by
    rw [State.route_setRoute]
    split
    · rfl
    · exact hk

/-! ### What leaves every route in its state -/

theorem State.unlockAll_tame (s : State) (r : Nat) : s.Tame (s.unlockAll r) :=
  (s.unlockAll_handedOn r).tame_of_routes (s.unlockAll_frame r).1

theorem State.foldl_unlock_routes (es : List Nat) (s : State) : (es.foldl State.unlock s).routes = s.routes := by
  rw [State.foldl_unlock_frame]

theorem State.foldl_dropClaim_routes (fs : List FlankRec) (s : State) : (fs.foldl State.dropClaim s).routes = s.routes := by
  rw [State.foldl_dropClaim_frame]

theorem State.foldl_unlock_tame (es : List Nat) (s : State) : s.Tame (es.foldl State.unlock s) :=
  (HandedOn.foldl id State.unlock State.unlock_handedOn es s).tame_of_routes (State.foldl_unlock_routes es s)

theorem State.dropClaims_tame (s : State) (r : Nat) (p : FlankRec → Bool) : s.Tame (s.dropClaims r p) := by
  unfold State.dropClaims
  exact ((HandedOn.foldl id State.dropClaim State.dropClaim_handedOn _ s).tame_of_routes
    (State.foldl_dropClaim_routes _ s)).trans (State.modRoute_tame _ r _)

theorem State.writeAspect_tame (s : State) (r : Nat) (a : Aspect) : s.Tame (s.writeAspect r a) := by
  refine (s.writeAspect_handedOn r a).tame (fun k => ?_)
  unfold State.writeAspect
  dsimp only
  refine (State.modRoute_state _ r _ k).trans ?_
  split <;> rfl

theorem State.setTimer_tame (s : State) (t : Nat) (x : Option HeldTimer) : s.Tame (s.setTimer t x) :=
  (s.setTimer_handedOn t x).tame_of_routes rfl

theorem State.waitList_tame (s : State) (w : List Waiting) : s.Tame { s with waitList := w } :=
  (s.waitList_handedOn w).tame_of_routes rfl

theorem State.grantTimer_tame (s : State) (t r : Nat) (p : Purpose) : s.Tame (s.grantTimer t r p) := by
  unfold State.grantTimer
  exact (s.setTimer_tame t _).trans (State.modRoute_tame _ r _)

theorem State.freeTimer_tame (s : State) (t : Nat) : s.Tame (s.freeTimer t) := by
  unfold State.freeTimer
  split
  · exact s.setTimer_tame t none
  · exact ((s.setTimer_tame t none).trans (State.waitList_tame _ _)).trans (State.grantTimer_tame _ t _ _)

theorem State.freeRequest_tame (s : State) (r : Nat) : s.Tame (s.freeRequest r) := by
  unfold State.freeRequest
  split
  · exact (s.modRoute_tame r _).trans (State.freeTimer_tame _ _)
  · split
    · exact (s.modRoute_tame r _).trans (State.waitList_tame _ _)
    · exact .refl s

theorem State.timerRequest_tame (s : State) (r : Nat) (p : Purpose) : s.Tame (s.timerRequest r p).1 := by
  unfold State.timerRequest
  split
  · exact s.freeRequest_tame r
  · split
    · exact s.grantTimer_tame _ r p
    · split
      · exact (s.modRoute_tame r _).trans (State.waitList_tame _ _)
      · split
        · exact s.grantTimer_tame _ r p
        · exact (s.modRoute_tame r _).trans (State.waitList_tame _ _)

/-! ### The Setting Engine -/

theorem Ev.changeTrans_tame (ev : Ev) (l : Link) (e : Nat) (t : TransRec) (ref : Byte) (cause : BorderCause)
    (reason : Option Byte) : ev.s.Tame (ev.changeTrans l e t ref cause reason).s :=
  (ev.changeTrans_handedOn l e t ref cause reason).tame_of_routes rfl

theorem Ev.declineOrigin_tame (ev : Ev) (r : Nat) (o : Option Origin) (x : Reason) :
    ev.s.Tame (ev.declineOrigin r o x).s :=
  (ev.declineOrigin_handedOn r o x).tame_of_routes (by rw [Ev.declineOrigin_s])

theorem Ev.inOrder_tame (q : Sequence) (fs : List (Ev → Ev)) (h : ∀ f ∈ fs, ∀ b : Ev, b.s.Tame (f b).s) (ev : Ev)
    (k : Nat) : ev.s.Tame (ev.inOrder q k fs).s := by
  induction fs generalizing ev k with
  | nil => exact .refl _
  | cons f fs ih =>
    exact (h f (by simp) { ev with offers := [] }).trans (ih (fun g hg => h g (by simp [hg])) (ev.part q k f) (k + 1))

/-- The Offer of a failing context is withdrawn where its transaction still stands (R89). -/
def Ev.withdrawOffer (ev : Ev) (o : Option Byte) (dest : Nat) (x : Reason) : Ev :=
  match o, ev.s.elemLink dest with
  | some ref, some l =>
    match (ev.s.transOf dest).state with
    | .offerSent | .heldOut => ev.sendWithdraw l dest ref x
    | _ => ev
  | _, _ => ev

/-- A context fails: its Offer is withdrawn, its route is released and reported REFUSED, and where a Decline is due a
neighbour is answered (R89, R90). -/
theorem Ev.failCtx_eq (ev : Ev) {c : Nat} {x : Ctx} (reason : Reason) (named : Nat) (d : Bool)
    (hx : ev.s.ctx c = some x) : ev.failCtx c reason named d =
      let a := (ev.withdrawOffer x.offerRef (ev.s.rrow x.route).dest reason).on (fun s => s.releaseSetting c x.route)
      if d then a.refuse x.route (ev.s.route x.route) reason named
      else a.routeReport x.route (ev.s.route x.route) (.refused reason (a.s.desig named)) := by
  unfold Ev.failCtx
  rw [hx]
  rfl

theorem Ev.failCtx_of_free (ev : Ev) {c : Nat} (reason : Reason) (named : Nat) (d : Bool) (hx : ev.s.ctx c = none) :
    ev.failCtx c reason named d = ev := by
  unfold Ev.failCtx
  rw [hx]

/-- A Withdraw ends the transaction and is sent; nothing else becomes of the state. -/
theorem Ev.withdrawOffer_s (ev : Ev) (o : Option Byte) (dest : Nat) (x : Reason) :
    (ev.withdrawOffer o dest x).s = { ev.s with
      trans := (ev.withdrawOffer o dest x).s.trans, sent := (ev.withdrawOffer o dest x).s.sent } := by
  unfold Ev.withdrawOffer
  split
  · split <;> rfl
  · rfl

theorem Ev.withdrawOffer_tame (ev : Ev) (o : Option Byte) (dest : Nat) (x : Reason) :
    ev.s.Tame (ev.withdrawOffer o dest x).s := by
  refine HandedOn.tame_of_routes ?_ (by rw [Ev.withdrawOffer_s])
  exact withdrawOf_handedOn ev o dest x

theorem State.releaseSetting_tame (s : State) (c r : Nat) : s.Tame (s.releaseSetting c r) :=
  (((s.unlockAll_tame r).trans (State.dropClaims_tame _ r _)).trans (State.freeRoute_tame _ r)).trans
    ((State.freeCtx_handedOn _ c).tame_of_routes (by simp))

theorem Ev.refuse_tame (ev : Ev) (r : Nat) (w : RouteRec) (reason : Reason) (named : Nat) :
    ev.s.Tame (ev.refuse r w reason named).s := by
  refine Ev.inOrder_tame _ _ (fun f hf b => ?_) ev 0
  simp only [List.mem_cons, List.not_mem_nil, or_false] at hf
  rcases hf with rfl | rfl
  · exact .refl _
  · exact b.declineOrigin_tame _ _ _

theorem Ev.failCtx_tame (ev : Ev) (c : Nat) (reason : Reason) (named : Nat) (d : Bool) :
    ev.s.Tame (ev.failCtx c reason named d).s := by
  cases hx : ev.s.ctx c with
  | none =>
    rw [Ev.failCtx_of_free _ _ _ _ hx]
    exact .refl _
  | some x =>
    have h := (ev.withdrawOffer_tame x.offerRef (ev.s.rrow x.route).dest reason).trans
      (State.releaseSetting_tame _ c x.route)
    rw [Ev.failCtx_eq _ _ _ _ hx]
    dsimp only
    split
    · exact h.via (Ev.refuse_tame _ _ _ _ _)
    · exact h

/-- A context completes: its route becomes LOCKED. -/
theorem Ev.completeCtx_tame (ev : Ev) {c : Nat} (hc : c < 4) : ev.s.Tame (ev.completeCtx c).s := by
  cases hx : ev.s.ctx c with
  | none =>
    unfold Ev.completeCtx
    rw [hx]
    exact .refl _
  | some x =>
    refine ⟨ev.completeCtx_handedOn c, fun _ r hr => ?_, fun h => absurd (h c hc) (by simp [hx])⟩
    have hroute : (ev.completeCtx c).s.routes = ((ev.s.freeCtx c).modRoute x.route
        (fun w => { w with state := .locked, context := none, clearWanted := true })).routes := by
      unfold Ev.completeCtx
      rw [hx]
      dsimp only
      split <;> rfl
    rw [State.route, hroute] at hr
    change ((((ev.s.freeCtx c).modRoute x.route
      (fun w => { w with state := .locked, context := none, clearWanted := true })).route r)).state = .cleared at hr
    rw [State.route_modRoute] at hr
    split at hr
    · cases hr
    · simpa using hr

theorem Ev.completeIfDone_tame (ev : Ev) {c : Nat} (hc : c < 4) : ev.s.Tame (ev.completeIfDone c).s := by
  unfold Ev.completeIfDone
  split
  · split
    · exact ev.completeCtx_tame hc
    · exact .refl _
  · exact .refl _

theorem Ev.handToCtx_tame (ev : Ev) (changed : List Nat) {c : Nat} (hc : c < 4) :
    ev.s.Tame (ev.handToCtx changed c).s := by
  unfold Ev.handToCtx
  split
  · exact .refl _
  · next x hx =>
    dsimp only
    split
    · exact ev.failCtx_tame _ _ _ _
    · split
      · exact .refl _
      · exact ((ev.s.setCtx_handedOn c _ (fun h => by simp [h] at hx)).tame_of_routes rfl).via
          (Ev.completeIfDone_tame _ hc)

theorem mem_contextNumbers {c : Nat} : c ∈ contextNumbers ↔ c < 4 := by
  simp only [contextNumbers, List.mem_cons, List.not_mem_nil, or_false]
  omega

/-- A fold over numbers that each meet a premise. -/
theorem State.Tame.foldl_mem {α : Type} (f : Ev → α → Ev) (l : List α) (h : ∀ a ∈ l, ∀ b : Ev, b.s.Tame (f b a).s) (b : Ev) :
    b.s.Tame (l.foldl f b).s := by
  induction l generalizing b with
  | nil => exact .refl _
  | cons a l ih => exact (h a (by simp) b).trans (ih (fun x hx => h x (by simp [hx])) (f b a))

theorem Ev.handToSetting_tame (ev : Ev) : ev.s.Tame ev.handToSetting.s :=
  State.Tame.foldl_mem _ _ (fun _ hc b => b.handToCtx_tame _ (mem_contextNumbers.1 hc)) _

/-! ### The Route Monitor -/

theorem Ev.borderRelease_tame (ev : Ev) (r : Nat) (b : Bool) : ev.s.Tame (ev.borderRelease r b).s := by
  refine (ev.borderRelease_handedOn r b).tame_of_routes ?_
  unfold Ev.borderRelease
  dsimp only
  split
  · split
    · split <;> rfl
    · rfl
  · rfl

theorem Ev.fullRelease_tame (ev : Ev) (r : Nat) : ev.s.Tame (ev.fullRelease r).s := by
  unfold Ev.fullRelease
  dsimp only
  have h := ((ev.s.unlockAll_tame r).trans (State.dropClaims_tame _ r (fun _ => true))).trans
    (State.freeRequest_tame _ r)
  refine h.via (Ev.inOrder_tame _ _ (fun f hf b => ?_) (ev.on _) 1)
  simp only [List.mem_cons, List.not_mem_nil, or_false] at hf
  rcases hf with rfl | rfl
  · exact b.borderRelease_tame r _
  · exact b.s.freeRoute_tame r

theorem Ev.timedWait_tame (ev : Ev) (r : Nat) (p : Purpose) (x : RouteEvent) : ev.s.Tame (ev.timedWait r p x).s := by
  unfold Ev.timedWait
  have h := ev.s.timerRequest_tame r p
  split
  · next s hs => rw [hs] at h; exact h.via (Ev.fullRelease_tame _ r)
  · next s _ _ hs => rw [hs] at h; exact h

theorem Ev.toDanger_tame (ev : Ev) (r : Nat) : ev.s.Tame (ev.toDanger r).s := ev.s.writeAspect_tame r _

theorem Ev.toDanger_state (ev : Ev) (r k : Nat) : ((ev.toDanger r).s.route k).state = (ev.s.route k).state := by
  refine (State.modRoute_state _ r _ k).trans ?_
  split <;> rfl

/-- A route that is not FREE has its signal put to danger and goes to another state than CLEARED. -/
theorem Ev.dangerThen_tame (ev : Ev) (r : Nat) (f : RouteRec → RouteRec) (hs : (ev.s.route r).state ≠ .free)
    (hf : ∀ w, (f w).state ≠ .cleared) : ev.s.Tame ((ev.toDanger r).on (fun s => s.modRoute r f)).s :=
  (ev.toDanger_tame r).trans
    (State.modRoute_tame_of_active _ r f (by rw [Ev.toDanger_state]; exact hs) (hf _))

theorem Ev.revert_tame (ev : Ev) (r e : Nat) (hs : (ev.s.route r).state ≠ .free) : ev.s.Tame (ev.revert r e).s :=
  ev.dangerThen_tame r (fun w => { w with state := .locked, clearWanted := false }) hs (fun _ => by simp)

theorem Ev.enterRoute_tame (ev : Ev) (r : Nat) (hs : (ev.s.route r).state ≠ .free) : ev.s.Tame (ev.enterRoute r).s :=
  ev.dangerThen_tame r (fun w => { (w.setGroup 1 .seen) with state := .inUse }) hs (fun _ => by simp)

theorem Ev.routeFault_tame (ev : Ev) (r e : Nat) (x : FaultCause) : ev.s.Tame (ev.routeFault r e x).s :=
  (ev.routeFault_handedOn r e x).tame_of_routes rfl

theorem Ev.routeFault_route (ev : Ev) (r e : Nat) (x : FaultCause) : (ev.routeFault r e x).s.route = ev.s.route := rfl

/-- A signal passed at danger: ROUTE_FAULT, then the train's entry. -/
theorem Ev.faultThenEnter_tame (ev : Ev) (r e : Nat) (x : FaultCause) (hs : (ev.s.route r).state ≠ .free) :
    ev.s.Tame ((ev.routeFault r e x).enterRoute r).s :=
  (ev.routeFault_tame r e x).trans (Ev.enterRoute_tame _ r (by rwa [Ev.routeFault_route]))

theorem Ev.modRoute_tame (ev : Ev) (r : Nat) (f : RouteRec → RouteRec)
    (hf : ∀ w, (f w).state = w.state := by exact fun _ => rfl) : ev.s.Tame (ev.on (fun s => s.modRoute r f)).s :=
  ev.s.modRoute_tame r f hf

theorem Ev.stepEntry_tame (ev : Ev) (r : Nat) : ev.s.Tame (ev.stepEntry r).s := by
  unfold Ev.stepEntry
  dsimp only
  split
  · exact .refl _
  · split
    · split
      · next hs =>
        exact (ev.enterRoute_tame r (by simp [hs])).trans
          (Ev.modRoute_tame _ r (fun w => { w with clearWanted := false }))
      · next hs => exact ev.faultThenEnter_tame r _ _ (by simp [hs])
      · next hs =>
        split
        · exact ev.routeFault_tame r _ _
        · exact (ev.faultThenEnter_tame r _ _ (by simp [hs])).trans (State.freeRequest_tame _ r)
      · exact .refl _
    · exact .refl _

theorem Ev.markSection_tame (ev : Ev) (r : Nat) (first : Bool) (x : ListRow) :
    ev.s.Tame (ev.markSection r first x).s := by
  unfold Ev.markSection
  dsimp only
  split
  · exact .refl _
  · split
    · exact ev.modRoute_tame r _
    · exact ev.routeFault_tame r _ _

theorem Ev.stepMarks_tame (ev : Ev) (r : Nat) : ev.s.Tame (ev.stepMarks r).s := by
  refine State.Tame.foldl Ev.s _ (fun b x => ?_) _ _
  split
  · exact b.markSection_tame r _ x
  · exact .refl _

theorem State.releaseGroup_tame (s : State) (r g : Nat) : s.Tame (s.releaseGroup r g) := by
  unfold State.releaseGroup
  exact ((s.foldl_unlock_tame _).trans (State.dropClaims_tame _ _ _)).trans (State.modRoute_tame _ _ _)

theorem Ev.endOverlap_tame (ev : Ev) (r : Nat) : ev.s.Tame (ev.endOverlap r).s :=
  ((State.foldl_unlock_tame _ ev.s).trans (State.dropClaims_tame _ r _)).via (Ev.fullRelease_tame _ r)

theorem State.dropClaims_state (s : State) (r : Nat) (p : FlankRec → Bool) (k : Nat) :
    ((s.dropClaims r p).route k).state = (s.route k).state := by
  unfold State.dropClaims
  refine (State.modRoute_state _ r _ k).trans ?_
  rw [State.route, State.foldl_dropClaim_routes]
  rfl

theorem State.releaseGroup_state (s : State) (r g k : Nat) :
    ((s.releaseGroup r g).route k).state = (s.route k).state := by
  unfold State.releaseGroup
  refine (State.modRoute_state _ r _ k).trans ((State.dropClaims_state _ r _ k).trans ?_)
  rw [State.route, State.foldl_unlock_routes]
  rfl

theorem State.foldl_releaseGroup_state (gs : List Nat) (s : State) (r k : Nat) :
    ((gs.foldl (fun s g => s.releaseGroup r g) s).route k).state = (s.route k).state := by
  induction gs generalizing s with
  | nil => rfl
  | cons g gs ih => exact (ih (s.releaseGroup r g)).trans (s.releaseGroup_state r g k)

theorem Ev.foldl_groupReleased_s (gs : List Nat) (ev : Ev) (r : Nat) :
    (gs.foldl (fun ev g => ev.routeEvent r (.groupReleased g)) ev).s = ev.s := by
  induction gs generalizing ev with
  | nil => rfl
  | cons g gs ih => exact ih _

theorem RouteRec.active_of_groupsLive {w : RouteRec} (h : w.groupsLive = true) : w.state ≠ .free := by
  intro hf
  simp [RouteRec.groupsLive, hf] at h

theorem Ev.stepRelease_tame (ev : Ev) (r : Nat) : ev.s.Tame (ev.stepRelease r).s := by
  unfold Ev.stepRelease
  dsimp only
  split
  · next hlive =>
    split
    · exact .refl _
    · next last _ _ =>
      generalize ((List.range (ev.s.rrow r).groups).map (· + 1)).filter
        (fun g => ev.s.releaseReady r g && !ev.before.releaseReady r g) = gs
      have h1 : ev.s.Tame (ev.on (fun s => gs.foldl (fun s g => s.releaseGroup r g) s)).s :=
        State.Tame.foldl id _ (fun b g => State.releaseGroup_tame b r g) gs ev.s
      have hs1 : ((ev.on (fun s => gs.foldl (fun s g => s.releaseGroup r g) s)).s.route r).state ≠ .free := by
        have h := State.foldl_releaseGroup_state gs ev.s r r
        rw [Ev.on_fields .. |>.1, h]
        exact RouteRec.active_of_groupsLive hlive
      generalize ev.on (fun s => gs.foldl (fun s g => s.releaseGroup r g) s) = ev1 at h1 hs1
      have h2 : (gs.dropLast.foldl (fun ev g => ev.routeEvent r (.groupReleased g)) ev1).s = ev1.s :=
        Ev.foldl_groupReleased_s _ _ r
      generalize gs.dropLast.foldl (fun ev g => ev.routeEvent r (.groupReleased g)) ev1 = ev2 at h2
      rw [← h2] at h1 hs1
      refine h1.trans ?_
      split
      · split
        · exact Ev.endOverlap_tame (ev2.part (.release r) 0 (fun ev => ev.routeEvent r (.groupReleased last))) r
        · exact (State.modRoute_tame_of_active ev2.s r (fun w => { w with state := .overlapHeld }) hs1 (by simp)).via
            (Ev.timedWait_tame _ r _ _)
      · exact .refl _
  · exact .refl _

/-- The first clear condition is the mode OPERATIONAL (R115). -/
theorem State.mode_of_firstFailing {s : State} {r : Nat} (h : s.firstFailing r = none) : s.mode = .operational := by
  simp only [State.firstFailing, Option.map_eq_none_iff, List.find?_eq_none] at h
  have := h ((s.rrow r).start, s.mode == .operational) (by simp [State.clearConditions])
  simpa using this

/-- In OPERATIONAL a route that is not FREE may also become CLEARED. -/
theorem State.modRoute_tame_of_operational (s : State) (r : Nat) (f : RouteRec → RouteRec)
    (hm : s.mode = .operational) (hs : (s.route r).state ≠ .free) : s.Tame (s.modRoute r f) where
  handed := s.modRoute_handedOn r f
  cleared hn := absurd hm hn
  free _ k hk := by
    rw [State.route_modRoute]
    split
    · next h => exact absurd (h ▸ hk) hs
    · exact hk

theorem Ev.stepClear_tame (ev : Ev) (r : Nat) : ev.s.Tame (ev.stepClear r).s := by
  unfold Ev.stepClear
  dsimp only
  split
  · next hs =>
    split
    · next hclear =>
      simp only [Bool.and_eq_true, Option.isNone_iff_eq_none] at hclear
      exact State.modRoute_tame_of_operational ev.s r (fun w => { w with state := .cleared, wasCleared := true })
        (State.mode_of_firstFailing hclear.2) (by simp [hs])
    · exact .refl _
  · next hs =>
    split
    · exact ev.revert_tame r _ (by simp [hs])
    · exact .refl _
  · split
    · exact ev.fullRelease_tame r
    · exact .refl _
  · exact .refl _

/-- The steps of a route's evaluation, whichever of them are taken (R113). -/
theorem Ev.evalRoute_tame (ev : Ev) (r : Nat) : ev.s.Tame (ev.evalRoute r).s := by
  unfold Ev.evalRoute
  dsimp only
  refine Ev.inOrder_tame _ _ (fun f hf b => ?_) { ev with offers := [] } 1
  obtain ⟨g, hg, rfl⟩ := List.mem_map.1 hf
  have h : g = Ev.stepEntry ∨ g = Ev.stepMarks ∨ g = Ev.stepRelease ∨ g = Ev.stepClear := by
    split at hg <;> simp at hg <;> simp [hg]
  rcases h with rfl | rfl | rfl | rfl
  · exact b.stepEntry_tame r
  · exact b.stepMarks_tame r
  · exact b.stepRelease_tame r
  · exact b.stepClear_tame r

theorem Ev.settleAspect_tame (ev : Ev) (r : Nat) : ev.s.Tame (ev.settleAspect r).s := by
  unfold Ev.settleAspect
  dsimp only
  split
  · split
    · exact ev.s.writeAspect_tame r _
    · split
      · exact .refl _
      · exact ev.s.writeAspect_tame r _
  · exact .refl _

theorem Ev.monitor_tame (ev : Ev) : ev.s.Tame ev.monitor.s :=
  (State.Tame.foldl Ev.s Ev.evalRoute Ev.evalRoute_tame _ ev).trans
    (State.Tame.foldl Ev.s Ev.settleAspect Ev.settleAspect_tame _ _)

/-- The end of an event. -/
theorem Ev.settle_tame (ev : Ev) : ev.s.Tame ev.settle := by
  have h : ev.s.Tame ev.handed := ev.handToSetting_tame.trans (Ev.monitor_tame _)
  exact ⟨ev.settle_handedOn, fun hm r hr => h.cleared hm r (by rwa [Ev.settle_route] at hr),
    fun hc r hr => by rw [Ev.settle_route]; exact h.free hc r hr⟩

end Sys2Proof.Machine

/-! PROOF SUPPORT. What a command keeps of the invariant: `Kept u t` holds of every command but the resets, the changes of
mode and those that load or verify the tables. -/

namespace Sys2Proof.Machine

/-- What the invariant speaks of is kept. -/
structure State.Kept (u t : State) : Prop where
  pending : t.pending = u.pending
  store : t.store = u.store
  tablesValid : t.tablesValid = u.tablesValid
  dmap : t.dmap = u.dmap
  mode : t.mode = u.mode
  safeN : t.safeN = u.safeN
  startup : t.startupDeadline = u.startupDeadline
  tick : t.tick = u.tick
  queue : u.queue.length ≤ 32 → t.queue.length ≤ 32
  queueOne : (∀ e, (u.queue.filter (Report.isElement e)).length ≤ 1) →
    ∀ e, (t.queue.filter (Report.isElement e)).length ≤ 1
  lost : u.lost ≤ 65535 → t.lost ≤ 65535
  requests : u.requests.length ≤ 8 → t.requests.length ≤ 8
  aux : u.auxTimer.isSome = u.auxPending.isSome → t.auxTimer.isSome = t.auxPending.isSome
  auxMode : u.mode ≠ .operational → u.auxPending = none → t.auxPending = none
  idle : u.mode ≠ .operational → (∀ c < 4, u.ctx c = none) → ∀ c < 4, t.ctx c = none
  cleared : u.mode ≠ .operational → ∀ r, (t.route r).state = .cleared → (u.route r).state = .cleared
  free : u.mode ≠ .operational → (∀ c < 4, u.ctx c = none) → ∀ r, (u.route r).state = .free → (t.route r).state = .free

theorem State.Kept.refl (u : State) : u.Kept u :=
  ⟨rfl, rfl, rfl, rfl, rfl, rfl, rfl, rfl, id, id, id, id, id, fun _ h => h, fun _ h => h, fun _ _ h => h, fun _ _ _ h => h⟩

theorem State.Kept.trans {u v t : State} (h : u.Kept v) (k : v.Kept t) : u.Kept t where
  pending := k.pending.trans h.pending
  store := k.store.trans h.store
  tablesValid := k.tablesValid.trans h.tablesValid
  dmap := k.dmap.trans h.dmap
  mode := k.mode.trans h.mode
  safeN := k.safeN.trans h.safeN
  startup := k.startup.trans h.startup
  tick := k.tick.trans h.tick
  queue hq := k.queue (h.queue hq)
  queueOne hq := k.queueOne (h.queueOne hq)
  lost hl := k.lost (h.lost hl)
  requests hr := k.requests (h.requests hr)
  aux ha := k.aux (h.aux ha)
  auxMode hm ha := k.auxMode (by rwa [h.mode]) (h.auxMode hm ha)
  idle hm hc := k.idle (by rwa [h.mode]) (h.idle hm hc)
  cleared hm r hr := h.cleared hm r (k.cleared (by rwa [h.mode]) r hr)
  free hm hc r hr := k.free (by rwa [h.mode]) (h.idle hm hc) r (h.free hm hc r hr)

/-- Transitivity where the middle state is only definitionally the same. -/
theorem State.Kept.via {u v v' t : State} (h : u.Kept v) (k : v'.Kept t) (e : v = v' := by rfl) : u.Kept t :=
  h.trans (e ▸ k)

theorem State.Kept.foldl {α β : Type} (p : β → State) (f : β → α → β) (h : ∀ b a, (p b).Kept (p (f b a))) (l : List α)
    (b : β) : (p b).Kept (p (l.foldl f b)) := by
  induction l generalizing b with
  | nil => exact .refl _
  | cons a l ih => exact (h b a).trans (ih _)

theorem State.Tame.kept {u t : State} (h : u.Tame t) : u.Kept t := by
  obtain ⟨hpending, hstore, -, hvalid, -, -, hmode, hsafe, hstartup, -, -, hmap, -, -, -, -, hreq, htick, -, haux, -, -,
    hpend, -⟩ := h.handed.fields
  exact {
    pending := hpending, store := hstore, tablesValid := hvalid, dmap := hmap, mode := hmode, safeN := hsafe
    startup := hstartup, tick := htick, queue := h.handed.queue, queueOne := h.handed.queueOne, lost := h.handed.lost
    requests := fun hr => by rwa [hreq]
    aux := fun ha => by rwa [haux, hpend]
    auxMode := fun _ ha => by rwa [hpend]
    idle := fun _ hc c hlt => h.handed.ctx c (hc c hlt)
    cleared := h.cleared
    free := fun _ => h.free }

/-- Two states that agree on all that the invariant speaks of. -/
structure State.SameCore (u t : State) : Prop where
  pending : t.pending = u.pending
  store : t.store = u.store
  tablesValid : t.tablesValid = u.tablesValid
  dmap : t.dmap = u.dmap
  mode : t.mode = u.mode
  safeN : t.safeN = u.safeN
  startup : t.startupDeadline = u.startupDeadline
  tick : t.tick = u.tick
  queue : t.queue = u.queue
  lost : t.lost = u.lost
  requests : t.requests = u.requests
  auxTimer : t.auxTimer = u.auxTimer
  auxPending : t.auxPending = u.auxPending
  contexts : t.contexts = u.contexts
  routes : t.routes = u.routes

theorem State.SameCore.kept {u t : State} (h : u.SameCore t) : u.Kept t where
  pending := h.pending
  store := h.store
  tablesValid := h.tablesValid
  dmap := h.dmap
  mode := h.mode
  safeN := h.safeN
  startup := h.startup
  tick := h.tick
  queue hq := by rwa [h.queue]
  queueOne hq := by rwa [h.queue]
  lost hl := by rwa [h.lost]
  requests hr := by rwa [h.requests]
  aux ha := by rwa [h.auxTimer, h.auxPending]
  auxMode _ ha := by rwa [h.auxPending]
  idle _ hc c hlt := by rw [State.ctx, h.contexts]; exact hc c hlt
  cleared _ r hr := by rwa [State.route, h.routes] at hr
  free _ _ r hr := by rwa [State.route, h.routes]

theorem State.modElem_kept (s : State) (e : Nat) (f : Elem → Elem) : s.Kept (s.modElem e f) :=
  State.SameCore.kept (by constructor <;> rfl)

theorem State.setLink_kept (s : State) (p : Port) (x : LinkRec) : s.Kept (s.setLink p x) := by
  cases p <;> exact State.SameCore.kept (by constructor <;> rfl)

theorem State.send_kept (s : State) (p : Port) (x : Telegram) : s.Kept (s.send p x) :=
  State.SameCore.kept (by constructor <;> rfl)

theorem State.begun_kept (s : State) : s.Kept s.begun := State.SameCore.kept (by constructor <;> rfl)

theorem State.latch_kept (s : State) (l : Latch) : s.Kept (s.latch l) := State.SameCore.kept (by constructor <;> rfl)

theorem State.setBlocked_kept (s : State) (e : Nat) (b : Bool) : s.Kept (s.setBlocked e b) :=
  State.SameCore.kept (by constructor <;> rfl)

theorem State.setLife_kept (s : State) (a : Nat) (x : Option Byte) : s.Kept (s.setLife a x) :=
  State.SameCore.kept (by constructor <;> rfl)

/-- Commands act on the invariant as what they keep of it says. -/
theorem State.Kept.inv {u t : State} (h : u.Kept t) (k : u.Inv) : t.Inv where
  store := by rw [h.store]; exact k.store
  queue := h.queue k.queue
  queueOne := h.queueOne k.queueOne
  requests := h.requests k.requests
  safeN := by rw [h.safeN, h.mode]; exact k.safeN
  tick := by rw [h.tick]; exact k.tick
  lost := h.lost k.lost
  auxTimer := h.aux k.auxTimer
  auxMode ha := by
    rw [h.mode]
    by_contra hm
    have hnone : u.auxPending = none := by
      by_contra hsome
      exact hm (k.auxMode (Option.isSome_iff_ne_none.2 hsome))
    simp [h.auxMode hm hnone] at ha
  startup := by rw [h.startup, h.mode]; exact k.startup
  map hv := by rw [h.dmap]; exact k.map (by rwa [h.tablesValid] at hv)
  tables hm := by rw [h.tablesValid]; exact k.tables (by rwa [h.mode] at hm)
  routes hm r := by
    rw [h.mode] at hm
    exact h.free (by simp [hm]) (k.contexts hm) r (k.routes hm r)
  contexts hm := by
    rw [h.mode] at hm
    exact h.idle (by simp [hm]) (k.contexts hm)

/-! ### Requests -/

theorem State.taken_kept (s : State) (p : Port) : s.Kept (s.taken p) :=
  (s.setLink_kept p _).trans (State.SameCore.kept (by constructor <;> rfl))

theorem State.reporting_kept (u : State) (os : List Offer) : u.Kept (u.reporting os) :=
  (HandedOn.tame_of_routes (HandedOn.foldl id State.offer State.offer_handedOn _ u)
    (by rw [id, id, State.foldl_offer_reports]; rfl)).kept

theorem State.answered_kept (s : State) (q : Req) (tag : Half) (code : ReplyCode) (data : ReplyData) :
    s.Kept (s.answered q tag code data) :=
  ((s.taken_kept .c).trans (State.send_kept _ .c _)).trans (State.reporting_kept _ _)

/-- What every request that is not admitted does, and what its owner does with one that is. -/
theorem takeRequest_cases {P : State → Prop} (q : Req) (tag : Half) (p : List Byte) (body : Ev → Ev) (s : State)
    (hanswered : ∀ code, P (s.answered q tag code .none))
    (hbody : s.admits q p = true → P (body (Ev.asked s)).settle) : P (takeRequest q tag p body s) := by
  by_cases hl : q.lengthFits p = true
  · cases hm : modeAnswer s.mode q with
    | some code =>
      rw [takeRequest_of_modeAnswer tag body hl hm]
      exact hanswered code
    | none =>
      by_cases hr : q.inRange p = true
      · have ha : s.admits q p = true := by simp [State.admits, hl, hm, hr]
        rw [takeRequest_asked tag body ha]
        exact hbody ha
      · rw [takeRequest_of_outOfRange tag body hl hm (by simpa using hr)]
        exact hanswered .outOfRange
  · rw [takeRequest_of_badLength tag body s (by simpa using hl)]
    exact hanswered .badLength

/-- An OPERATION-class request is admitted in OPERATIONAL only (R167). -/
theorem State.operational_of_admits {s : State} {q : Req} {p : List Byte} (h : s.admits q p = true)
    (hq : q.cls = .operation) : s.mode = .operational := by
  simp only [State.admits, Bool.and_eq_true, Option.isNone_iff_eq_none] at h
  obtain ⟨⟨-, hm⟩, -⟩ := h
  cases hmode : s.mode <;> simp [hmode, hq, modeAnswer] at hm ⊢

/-- What an event does and what its end hands on. -/
theorem Ev.settle_kept {s : State} {ev : Ev} (h : s.Kept ev.s) : s.Kept ev.settle := h.trans ev.settle_tame.kept

/-- A request whose owner keeps what the invariant speaks of. -/
theorem takeRequest_kept (q : Req) (tag : Half) (p : List Byte) (body : Ev → Ev) (s : State)
    (h : s.admits q p = true → (s.taken .c).Kept (body (Ev.asked s)).s) : s.Kept (takeRequest q tag p body s) :=
  takeRequest_cases q tag p body s (fun code => s.answered_kept q tag code .none)
    (fun ha => Ev.settle_kept ((s.taken_kept .c).trans (h ha)))

theorem Ev.reply_kept (ev : Ev) (q : Req) (tag : Half) (code : ReplyCode) (data : ReplyData) :
    ev.s.Kept (ev.reply q tag code data).s := ev.s.send_kept _ _

theorem Ev.answer_kept (ev : Ev) (q : Req) (tag : Half) (code : ReplyCode) : ev.s.Kept (ev.answer q tag code).s :=
  ev.s.send_kept _ _

theorem Ev.withFound_kept {α : Type} (ev : Ev) (q : Req) (tag : Half) (x : Except ReplyCode α) (f : α → Ev)
    (h : ∀ a, ev.s.Kept (f a).s) : ev.s.Kept (ev.withFound q tag x f).s := by
  cases x with
  | error code => exact ev.answer_kept q tag code
  | ok a => exact h a

end Sys2Proof.Machine

/-! PROOF SUPPORT. Each command's share in the invariant: what the owners of the requests and of the border and field
telegrams, and the events inside the part, keep of it. -/

namespace Sys2Proof.Machine

/-! ### In OPERATIONAL -/

/-- In OPERATIONAL any operation of the blocks keeps what the invariant speaks of. -/
theorem HandedOn.kept {u t : State} (h : HandedOn u t) (hm : u.mode = .operational) : u.Kept t := by
  obtain ⟨hpending, hstore, -, hvalid, -, -, hmode, hsafe, hstartup, -, -, hmap, -, -, -, -, hreq, htick, -, haux, -, -,
    hpend, -⟩ := h.fields
  exact {
    pending := hpending, store := hstore, tablesValid := hvalid, dmap := hmap, mode := hmode, safeN := hsafe
    startup := hstartup, tick := htick, queue := h.queue, queueOne := h.queueOne, lost := h.lost
    requests := fun hr => by rwa [hreq]
    aux := fun ha => by rwa [haux, hpend]
    auxMode := fun hn => absurd hm hn, idle := fun hn => absurd hm hn, cleared := fun hn => absurd hm hn
    free := fun hn => absurd hm hn }

/-- A context is taken, in OPERATIONAL only. -/
theorem State.setCtx_kept (s : State) (c : Nat) (x : Option Ctx) (hm : s.mode = .operational) : s.Kept (s.setCtx c x) :=
  { State.Kept.refl s with
    idle := fun hn => absurd hm hn
    cleared := fun hn => absurd hm hn
    free := fun hn => absurd hm hn }

theorem State.setCtxTimer_kept (s : State) (c : Nat) (x : Option Timer) : s.Kept (s.setCtxTimer c x) :=
  State.SameCore.kept (by constructor <;> rfl)

theorem State.commandPoint_kept (s : State) (e : Nat) (side : Side) : s.Kept (s.commandPoint e side) :=
  s.modElem_kept e _

/-- A request joins the tail of a queue with a place, in OPERATIONAL only. -/
theorem State.queueing_kept (s : State) (r : Nat) (o : Origin) (hm : s.mode = .operational) (hl : s.requests.length < 8) :
    s.Kept (s.queueing r o) :=
  { State.Kept.refl s with
    requests := fun _ => by
      have h : (s.queueing r o).requests = s.requests ++ [⟨r, o⟩] := rfl
      rw [h, List.length_append, List.length_singleton]
      omega
    idle := fun hn => absurd hm hn
    cleared := fun hn => absurd hm hn
    free := fun hn => absurd hm hn }

/-- A waiting request leaves its place, and its route becomes FREE. -/
theorem State.unqueueing_kept (s : State) (r : Nat) : s.Kept (s.unqueueing r) := by
  have h := s.freeRoute_tame r
  exact { h.kept with
    requests := fun hr => (List.length_filter_le _ s.requests).trans hr }

theorem State.filterRequests_kept (s : State) (p : Request → Bool) : s.Kept { s with requests := s.requests.filter p } :=
  { State.Kept.refl s with requests := fun hr => (List.length_filter_le _ s.requests).trans hr }

theorem State.dropRequest_kept (s : State) : s.Kept { s with requests := s.requests.drop 1 } :=
  { State.Kept.refl s with requests := fun hr => by rw [List.length_drop]; omega }

/-! ### The auxiliary unit -/

theorem State.clearAux_kept (s : State) : s.Kept s.clearAux :=
  { State.Kept.refl s with aux := fun _ => rfl, auxMode := fun _ _ => rfl }

theorem State.withoutAux_kept (s : State) : s.Kept s.withoutAux :=
  { State.Kept.refl s with
    aux := fun ha => by
      change (if s.auxPending = none then s.auxTimer else none).isSome = false
      split
      · next h => rw [ha, h]; rfl
      · rfl
    auxMode := fun _ _ => rfl }

theorem State.prepareAux_kept (s : State) (p : AuxPending) (hm : s.mode = .operational) : s.Kept (s.prepareAux p) :=
  { State.Kept.refl s with aux := fun _ => rfl, auxMode := fun hn => absurd hm hn }

theorem Ev.endAux_kept (ev : Ev) (x : AuxEvent) : ev.s.Kept (ev.endAux x).s := by
  obtain ⟨os, hos⟩ := ev.endAux_eq x
  rw [hos]
  exact ev.s.withoutAux_kept

/-! ### Waiting requests and their refusals -/

theorem Ev.inOrder_kept (q : Sequence) (fs : List (Ev → Ev)) (h : ∀ f ∈ fs, ∀ b : Ev, b.s.Kept (f b).s) (ev : Ev)
    (k : Nat) : ev.s.Kept (ev.inOrder q k fs).s := by
  induction fs generalizing ev k with
  | nil => exact .refl _
  | cons f fs ih =>
    exact (h f (by simp) { ev with offers := [] }).trans (ih (fun g hg => h g (by simp [hg])) (ev.part q k f) (k + 1))

theorem Ev.queueRoute_kept (ev : Ev) (r : Nat) (o : Origin) (hm : ev.s.mode = .operational)
    (hl : ev.s.requests.length < 8) : ev.s.Kept (ev.queueRoute r o).s := by
  rw [Ev.queueRoute_eq]
  exact ev.s.queueing_kept r o hm hl

theorem Ev.cancelQueued_kept (ev : Ev) (r : Nat) (reason : Reason) (d : Bool) :
    ev.s.Kept (ev.cancelQueued r reason d).s := by
  cases d with
  | false => exact ev.s.unqueueing_kept r
  | true =>
    rw [Ev.cancelQueued_declining]
    exact (ev.s.unqueueing_kept r).via (Ev.declineOrigin_tame _ _ _ _).kept

theorem Ev.abortSetting_tame (ev : Ev) (r : Nat) : ev.s.Tame (ev.abortSetting r).s := by
  unfold Ev.abortSetting
  split
  · exact ev.failCtx_tame _ _ _ _
  · exact .refl _

theorem Ev.refuseReservation_kept (ev : Ev) (q : Request) (x : Refused) : ev.s.Kept (ev.refuseReservation q x).s := by
  unfold Ev.refuseReservation
  exact (ev.s.freeRoute_tame q.route).kept.via (Ev.declineOrigin_tame _ _ _ _).kept

theorem State.Kept.foldl_state {α : Type} (f : State → α → State) (h : ∀ (b : State) a, b.Kept (f b a))
    (l : List α) (s : State) :
    s.Kept (l.foldl f s) := State.Kept.foldl id f h l s

/-- The locks of a reservation (R81). -/
def State.lockRoute (s : State) (r : Nat) : State := (s.lockedSet r).foldl (fun s e => s.lockTo r e) s

/-- The points of a reservation are commanded (R83). -/
def State.commandPoints (s : State) (pts : List Awaited) : State :=
  pts.foldl (fun s a => s.commandPoint a.elem a.side) s

/-- The record of a route that a context takes (R81). -/
def RouteRec.taken (x : RouteRec) (c groups : Nat) (res : List FlankRec) : RouteRec :=
  { x with state := .setting, context := some c, groups := List.replicate groups .reserved, flank := res,
           clearWanted := false, wasCleared := false }

/-- The points that a reservation awaits (R83). -/
def State.awaitedPoints (s : State) (r : Nat) (res : List FlankRec) : List Awaited :=
  (s.routePoints r res).filter (fun a => !s.atSide a.elem a.side)

/-- The state of a reservation before its Offer: locks, claims, SETTING, commands and the context (R81, R83, R104). -/
def State.reserving (s : State) (c r : Nat) (res : List FlankRec) : State :=
  (((res.foldl State.makeClaim (s.lockRoute r)).modRoute r (fun x => x.taken c (s.rrow r).groups res)).commandPoints
    (s.routePoints r res)).setCtx c
      (some { route := r, awaited := s.awaitedPoints r res, reply := false, offerRef := none })

/-- The Offer of a reservation and the context that awaits its reply (R84, R142). -/
def Ev.offering (ev : Ev) (l : Link) (c r dest variant : Nat) (awaited : List Awaited) : Ev :=
  (ev.sendOffer l dest variant).on (fun s =>
    (s.setCtx c (some { route := r, awaited := awaited, reply := true, offerRef := some (ev.s.offerRef l + 1) })).startCtxTimer c)

theorem State.lockRoute_kept (s : State) (r : Nat) : s.Kept (s.lockRoute r) :=
  State.Kept.foldl_state _ (fun b e => b.modElem_kept e _) _ _

theorem State.foldl_makeClaim_kept (s : State) (res : List FlankRec) : s.Kept (res.foldl State.makeClaim s) :=
  State.Kept.foldl_state _ (fun b (f : FlankRec) => b.modElem_kept f.elem _) _ _

theorem State.commandPoints_kept (s : State) (pts : List Awaited) : s.Kept (s.commandPoints pts) :=
  State.Kept.foldl_state _ (fun b (a : Awaited) => b.commandPoint_kept a.elem a.side) _ _

/-- A reservation, and the Offer of an EXIT route (R84). -/
def Ev.reserved (ev : Ev) (c r : Nat) (res : List FlankRec) : Ev :=
  match (ev.s.reserving c r res).routeKind r, (ev.s.reserving c r res).elemLink (ev.s.rrow r).dest with
  | some .exit, some l => (ev.on (fun s => s.reserving c r res)).offering l c r
      (ev.s.rrow r).dest (ev.s.rrow r).variant (ev.s.awaitedPoints r res)
  | _, _ => ev.on (fun s => s.reserving c r res)

theorem Ev.reserve_eq (ev : Ev) (c : Nat) (q : Request) (res : List FlankRec) :
    ev.reserve c q res = (ev.reserved c q.route res).completeIfDone c := by
  unfold Ev.reserved
  rfl

theorem State.reserving_kept (s : State) (c r : Nat) (res : List FlankRec) (hm : s.mode = .operational) :
    s.Kept (s.reserving c r res) := by
  have h1 := (s.lockRoute_kept r).trans (State.foldl_makeClaim_kept _ res)
  have h2 := h1.trans ((State.modRoute_handedOn _ r (fun x => x.taken c (s.rrow r).groups res)).kept (h1.mode.trans hm))
  have h3 := h2.trans (State.commandPoints_kept _ (s.routePoints r res))
  exact h3.trans (State.setCtx_kept _ c _ (h3.mode.trans hm))

theorem State.setOfferRef_kept (s : State) (l : Link) (b : Byte) : s.Kept (s.setOfferRef l b) := by
  cases l <;> exact State.SameCore.kept (by constructor <;> rfl)

theorem Ev.sendOffer_kept (ev : Ev) (l : Link) (e variant : Nat) : ev.s.Kept (ev.sendOffer l e variant).s := by
  unfold Ev.sendOffer
  exact (ev.s.setOfferRef_kept l _).trans ((State.send_kept _ _ _).via (Ev.changeTrans_tame _ _ _ _ _ _ _).kept)

theorem Ev.offering_kept (ev : Ev) (l : Link) (c r dest variant : Nat) (awaited : List Awaited)
    (hm : ev.s.mode = .operational) : ev.s.Kept (ev.offering l c r dest variant awaited).s := by
  have h1 := ev.sendOffer_kept l dest variant
  exact (h1.trans (State.setCtx_kept _ c _ (h1.mode.trans hm))).trans (State.setCtxTimer_kept _ c _)

/-- A reservation, in OPERATIONAL only, keeps what the invariant speaks of. -/
theorem Ev.reserve_kept (ev : Ev) {c : Nat} (hc : c < 4) (q : Request) (res : List FlankRec)
    (hm : ev.s.mode = .operational) : ev.s.Kept (ev.reserve c q res).s := by
  have h1 := ev.s.reserving_kept c q.route res hm
  have h2 : ev.s.Kept (ev.reserved c q.route res).s := by
    unfold Ev.reserved
    split
    · exact h1.via (Ev.offering_kept _ _ _ _ _ _ _ (h1.mode.trans hm))
    · exact h1
  rw [Ev.reserve_eq]
  exact h2.trans (Ev.completeIfDone_tame _ hc).kept

/-! ### The border telegrams -/

theorem State.sendBorderStatus_kept (s : State) (l : Link) : s.Kept (s.sendBorderStatus l) := s.send_kept _ _

theorem State.resend_kept (s : State) (l : Link) (e : Nat) : s.Kept (s.resend l e) := by
  unfold State.resend
  split
  · exact .refl s
  · split
    · exact s.send_kept _ _
    · exact .refl s

theorem State.borderLinkUp_kept (s : State) (l : Link) : s.Kept (s.borderLinkUp l) :=
  (s.sendBorderStatus_kept l).trans (State.Kept.foldl_state _ (fun b e => b.resend_kept l e) _ _)

theorem Ev.validTelegram_kept (ev : Ev) (p : Port) : ev.s.Kept (ev.validTelegram p).s := by
  unfold Ev.validTelegram
  dsimp only
  split
  · exact ev.s.setLink_kept p _
  · split
    · exact ev.s.setLink_kept p _
    · split
      · exact (ev.s.setLink_kept p _).via (State.borderLinkUp_kept _ _)
      · exact ev.s.setLink_kept p _

theorem Ev.invalidTelegram_kept (ev : Ev) (p : Port) : ev.s.Kept (ev.invalidTelegram p).s := by
  unfold Ev.invalidTelegram
  dsimp only
  split
  · exact .refl _
  · exact ev.s.setLink_kept p _

theorem Ev.start_kept (s : State) : s.Kept (Ev.start s).s := s.begun_kept

theorem takeBorder_kept (l : Link) (fits : Bool) (body : Ev → Ev) (s : State) (h : ∀ ev : Ev, ev.s.Kept (body ev).s) :
    s.Kept (takeBorder l fits body s) := by
  unfold takeBorder
  split
  · exact Ev.settle_kept (((Ev.start_kept s).trans (Ev.validTelegram_kept _ _)).trans (h _))
  · exact Ev.settle_kept ((Ev.start_kept s).trans (Ev.invalidTelegram_kept _ _))

theorem State.applyEntry_kept (s : State) (l : Link) (x : EntryIn) : s.Kept (s.applyEntry l x) := by
  unfold State.applyEntry
  split
  · exact s.modElem_kept _ _
  · exact .refl s

theorem Ev.borderStatus_kept (ev : Ev) (l : Link) (p : List Byte) : ev.s.Kept (ev.borderStatus l p).s := by
  unfold Ev.borderStatus
  split
  · exact State.Kept.foldl_state _ (fun b x => b.applyEntry_kept l x) _ _
  · exact .refl _

theorem Ev.sendDecline_kept (ev : Ev) (l : Link) (e : Option Nat) (point ref : Byte) (x : Reason) :
    ev.s.Kept (ev.sendDecline l e point ref x).s := by
  rw [Ev.sendDecline_eq]
  exact ev.s.send_kept _ _

theorem Ev.entryRequest_kept (ev : Ev) (l : Link) (e r : Nat) (tx : BorderTx) (hm : ev.s.mode = .operational) :
    ev.s.Kept (ev.entryRequest l e r tx).s := by
  unfold Ev.entryRequest
  dsimp only
  split
  · exact .refl _
  · split
    · exact ev.sendDecline_kept ..
    · split
      · exact ev.sendDecline_kept ..
      · split
        · exact ev.sendDecline_kept ..
        · next hl => exact ev.queueRoute_kept r _ hm (by omega)

theorem Ev.offerIdle_kept (ev : Ev) (l : Link) (e : Nat) (tx : BorderTx) (hm : ev.s.mode = .operational) :
    ev.s.Kept (ev.offerIdle l e tx).s := by
  unfold Ev.offerIdle
  split
  · exact ev.entryRequest_kept l e _ tx hm
  · exact ev.sendDecline_kept ..

theorem State.ctxAwaiting_lt {s : State} {e c : Nat} (h : s.ctxAwaiting e = some c) : c < 4 :=
  mem_contextNumbers.1 (List.mem_of_find?_eq_some h)

/-- The context that awaits the reply to an Offer fails, where one does. -/
def Ev.failAwaiting (ev : Ev) (e : Nat) (reason : Reason) (d : Bool) : Ev :=
  match ev.s.ctxAwaiting e with
  | some c => ev.failCtx c reason e d
  | none => ev

theorem Ev.failAwaiting_tame (ev : Ev) (e : Nat) (reason : Reason) (d : Bool) :
    ev.s.Tame (ev.failAwaiting e reason d).s := by
  unfold Ev.failAwaiting
  split
  · exact ev.failCtx_tame _ _ _ _
  · exact .refl _

theorem Ev.crossing_eq (ev : Ev) (l : Link) (e : Nat) (tx : BorderTx) : ev.crossing l e tx =
    if siteSeniority ev.s.store l = 1 then ev.sendDecline l (some e) tx.point tx.reference .crossing
    else (ev.part .crossing 0 (fun ev => ev.failAwaiting e .borderCrossing true)).part .crossing 1
      (fun ev => ev.offerIdle l e tx) := rfl

theorem Ev.crossing_kept (ev : Ev) (l : Link) (e : Nat) (tx : BorderTx) (hm : ev.s.mode = .operational) :
    ev.s.Kept (ev.crossing l e tx).s := by
  rw [Ev.crossing_eq]
  split
  · exact ev.sendDecline_kept ..
  · have h := (Ev.failAwaiting_tame { ev with offers := [] } e .borderCrossing true).kept
    exact h.trans (Ev.offerIdle_kept
      { ev.part .crossing 0 (fun ev => ev.failAwaiting e .borderCrossing true) with offers := [] } l e tx (h.mode.trans hm))

theorem Ev.offer_kept (ev : Ev) (l : Link) (tx : BorderTx) : ev.s.Kept (ev.offer l tx).s := by
  unfold Ev.offer
  dsimp only
  split
  · exact ev.sendDecline_kept ..
  · next hm =>
    have hm : ev.s.mode = .operational := by simpa using hm
    split
    · exact ev.sendDecline_kept ..
    · split
      · exact ev.crossing_kept l _ tx hm
      · exact ev.sendDecline_kept ..
      · split
        · exact ev.s.send_kept _ _
        · exact ev.sendDecline_kept ..
      · exact ev.offerIdle_kept l _ tx hm

theorem Ev.onBorder_kept (ev : Ev) (l : Link) (tx : BorderTx) (f : Nat → Ev) (h : ∀ e, ev.s.Kept (f e).s) :
    ev.s.Kept (ev.onBorder l tx f).s := by
  unfold Ev.onBorder
  split
  · exact h _
  · exact .refl _

theorem Ev.replyArrived_tame (ev : Ev) {c : Nat} (hc : c < 4) : ev.s.Tame (ev.replyArrived c).s := by
  unfold Ev.replyArrived
  split
  · next x hx =>
    have h1 := (ev.s.setCtx_handedOn c (some { x with reply := false }) (fun h => by simp [h] at hx)).tame_of_routes rfl
    have h2 := h1.trans ((State.stopCtxTimer_handedOn _ c).tame_of_routes rfl)
    exact h2.via (Ev.completeIfDone_tame _ hc)
  · exact .refl _

theorem Ev.accept_tame (ev : Ev) (l : Link) (tx : BorderTx) (e : Nat) : ev.s.Tame (ev.accept l tx e).s := by
  unfold Ev.accept
  dsimp only
  split
  · split
    · next c hc => exact (ev.changeTrans_tame _ _ _ _ _ _).trans (Ev.replyArrived_tame _ (State.ctxAwaiting_lt hc))
    · exact ev.changeTrans_tame _ _ _ _ _ _
  · exact .refl _
  · exact (ev.sendTooLate_handedOn l e tx.point tx.reference).tame_of_routes rfl

theorem Ev.decline_eq (ev : Ev) (l : Link) (tx : BorderTx) (e : Nat) : ev.decline l tx e =
    if (ev.s.transOf e).state = .offerSent ∧ (ev.s.transOf e).reference = some tx.reference then
      (ev.changeTrans l e {} tx.reference (.received .decline) (some tx.reason)).failAwaiting e .borderDeclined true
    else ev := rfl

theorem Ev.decline_tame (ev : Ev) (l : Link) (tx : BorderTx) (e : Nat) : ev.s.Tame (ev.decline l tx e).s := by
  rw [Ev.decline_eq]
  split
  · exact (ev.changeTrans_tame _ _ _ _ _ _).trans (Ev.failAwaiting_tame _ _ _ _)
  · exact .refl _

theorem State.freeBorder_tame (s : State) (r e : Nat) : s.Tame (s.freeBorder r e) := by
  unfold State.freeBorder
  split
  · exact (s.unlock_handedOn e).tame_of_routes rfl
  · exact .refl s

theorem Ev.fault_tame (ev : Ev) (x : Src) (f : FaultReport) : ev.s.Tame (ev.fault x f).s :=
  (ev.s.latch_handedOn f.cls).tame_of_routes rfl

theorem Ev.dangerRelease_tame (ev : Ev) (r : Nat) : ev.s.Tame ((ev.toDanger r).fullRelease r).s :=
  (ev.toDanger_tame r).trans (Ev.fullRelease_tame _ r)

theorem Ev.withdrawHeld_tame (ev : Ev) (l : Link) (e r : Nat) (ref : Byte) : ev.s.Tame (ev.withdrawHeld l e r ref).s := by
  unfold Ev.withdrawHeld
  dsimp only
  split
  · exact (ev.s.freeBorder_tame r e).via (Ev.fault_tame _ _ _)
  · split
    · exact ev.dangerRelease_tame r
    · exact ev.fullRelease_tame r

theorem Ev.withdrawRequest_kept (ev : Ev) (l : Link) (e : Nat) (ref : Byte) (both : Bool) :
    ev.s.Kept (ev.withdrawRequest l e ref both).s := by
  unfold Ev.withdrawRequest
  split
  · split
    · exact ev.cancelQueued_kept _ _ _
    · split
      · exact (ev.failCtx_tame _ _ _ _).kept
      · exact .refl _
  · exact .refl _

theorem Ev.withdraw_kept (ev : Ev) (l : Link) (tx : BorderTx) (e : Nat) : ev.s.Kept (ev.withdraw l tx e).s := by
  unfold Ev.withdraw
  dsimp only
  split
  · split
    · refine Ev.inOrder_kept _ _ (fun f hf b => ?_) ev 0
      simp only [List.mem_cons, List.not_mem_nil, or_false] at hf
      rcases hf with rfl | rfl
      · exact (b.changeTrans_tame _ _ _ _ _ _).kept
      · split
        · exact (b.withdrawHeld_tame _ _ _ _).kept
        · exact .refl _
    · exact .refl _
  · exact ev.withdrawRequest_kept _ _ _ _
  · exact ev.withdrawRequest_kept _ _ _ _
  · exact .refl _

theorem Ev.handback_tame (ev : Ev) (l : Link) (tx : BorderTx) (e : Nat) : ev.s.Tame (ev.handback l tx e).s := by
  unfold Ev.handback
  dsimp only
  split
  · split
    · exact (ev.changeTrans_tame _ _ _ _ _ _).via (State.freeBorder_tame _ _ _)
    · exact ev.changeTrans_tame _ _ _ _ _ _
  · exact .refl _

end Sys2Proof.Machine

/-! PROOFS. What every command keeps: the queue of waiting commands, the invariant, and outside OPERATIONAL that no route
becomes CLEARED. -/

namespace Sys2Proof.Machine

/-! ### The requests -/

/-- A request for one found route, element or target. -/
theorem takeRequest_found_kept {α : Type} (q : Req) (tag : Half) (p : List Byte) (find : State → Except ReplyCode α)
    (f : Ev → α → Ev) (s : State) (h : s.admits q p = true → ∀ a, (s.taken .c).Kept (f (Ev.asked s) a).s) :
    s.Kept (takeRequest q tag p (fun ev => ev.withFound q tag (find ev.s) (f ev)) s) :=
  takeRequest_kept q tag p _ s (fun ha => Ev.withFound_kept (Ev.asked s) q tag _ _ (h ha))

theorem takeSetRoute_kept (tag : Half) (p : List Byte) (s : State) : s.Kept (takeSetRoute tag p s) := by
  refine takeRequest_found_kept .setRoute tag p (fun s => s.payloadRoute p) (Ev.setRoute tag) s (fun ha r => ?_)
  have hm : (s.taken .c).mode = .operational := State.operational_of_admits ha rfl
  have h (code : ReplyCode) := Ev.answer_kept (Ev.asked s) .setRoute tag code
  unfold Ev.setRoute
  split
  · exact h _
  · split
    · exact h _
    · split
      · exact h _
      · next hl =>
        have h := Ev.reply_kept (Ev.asked s) .setRoute tag .queued (.routeIndex r)
        exact h.trans (Ev.queueRoute_kept _ r _ (h.mode.trans hm) (Nat.lt_of_not_le hl))

theorem Ev.cancelLocked_handedOn (ev : Ev) (r : Nat) : HandedOn ev.s (ev.cancelLocked r).s := by
  unfold Ev.cancelLocked
  dsimp only
  have h1 := (ev.toDanger_handedOn r).trans (State.modRoute_handedOn _ r (fun w => { w with clearWanted := false }))
  split
  · exact h1.via (Ev.fullRelease_handedOn _ r)
  · split
    · exact (h1.trans (State.modRoute_handedOn _ r (fun w => { w with state := .cancelling }))).via
        (Ev.timedWait_handedOn _ r _ _)
    · split
      · exact h1.via (Ev.fullRelease_handedOn _ r)
      · exact h1.trans (State.modRoute_handedOn _ r (fun w => { w with state := .cancelling }))

theorem takeCancelRoute_kept (tag : Half) (p : List Byte) (s : State) : s.Kept (takeCancelRoute tag p s) := by
  refine takeRequest_found_kept .cancelRoute tag p (fun s => s.payloadRoute p) (Ev.cancelRoute tag) s (fun ha r => ?_)
  have hm : (s.taken .c).mode = .operational := State.operational_of_admits ha rfl
  have h (code : ReplyCode) := Ev.answer_kept (Ev.asked s) .cancelRoute tag code
  have hl := (h .accepted).via ((Ev.cancelLocked_handedOn _ r).kept ((h .accepted).mode.trans hm))
  unfold Ev.cancelRoute
  split
  · exact h _
  · exact (h _).trans (Ev.cancelQueued_kept _ _ _ _)
  · exact (h _).trans (Ev.abortSetting_tame _ r).kept
  · exact hl
  · exact hl
  · exact h _
  · exact h _
  · exact h _

theorem takeReSignal_kept (tag : Half) (p : List Byte) (s : State) : s.Kept (takeReSignal tag p s) := by
  refine takeRequest_found_kept .reSignal tag p (fun s => s.payloadRoute p) (Ev.reSignal tag) s (fun _ r => ?_)
  have h (code : ReplyCode) := Ev.answer_kept (Ev.asked s) .reSignal tag code
  unfold Ev.reSignal
  split
  · exact (h .accepted).trans (State.modRoute_tame _ r (fun w => { w with clearWanted := true })).kept
  · exact h _

theorem takeMovePoint_kept (tag : Half) (p : List Byte) (s : State) : s.Kept (takeMovePoint tag p s) := by
  refine takeRequest_found_kept .movePoint tag p (fun s => s.payloadElem p) (Ev.movePoint tag p) s (fun _ e => ?_)
  have h (code : ReplyCode) := Ev.answer_kept (Ev.asked s) .movePoint tag code
  unfold Ev.movePoint
  split
  · exact h _
  · exact (h _).trans (State.commandPoint_kept _ e _)
  · exact h _

theorem takeBlockElement_kept (tag : Half) (p : List Byte) (s : State) : s.Kept (takeBlockElement tag p s) :=
  takeRequest_found_kept .blockElement tag p (fun s => s.payloadElem p)
    (fun ev e => (ev.answer .blockElement tag .accepted).on (fun s => s.setBlocked e true)) s (fun _ e =>
    (Ev.answer_kept (Ev.asked s) .blockElement tag .accepted).trans (State.setBlocked_kept _ e true))

theorem takeUnblockElement_kept (tag : Half) (p : List Byte) (s : State) : s.Kept (takeUnblockElement tag p s) :=
  takeRequest_found_kept .unblockElement tag p (fun s => s.payloadElem p)
    (fun ev e => (ev.answer .unblockElement tag .accepted).on (fun s => s.setBlocked e false)) s (fun _ e =>
    (Ev.answer_kept (Ev.asked s) .unblockElement tag .accepted).trans (State.setBlocked_kept _ e false))

theorem takeAuxPrepare_kept (tag : Half) (p : List Byte) (s : State) : s.Kept (takeAuxPrepare tag p s) := by
  refine takeRequest_found_kept .auxPrepare tag p (fun s => s.payloadAux p) (Ev.auxPrepare tag) s (fun ha cmd => ?_)
  have hm : (s.taken .c).mode = .operational := State.operational_of_admits ha rfl
  have h (code : ReplyCode) := Ev.answer_kept (Ev.asked s) .auxPrepare tag code
  unfold Ev.auxPrepare
  split
  · exact h _
  · split
    · exact (h .accepted).trans (State.prepareAux_kept _ ⟨cmd, tag⟩ hm)
    · exact (h .auxReplaced).trans (State.prepareAux_kept _ ⟨cmd, tag⟩ hm)

theorem Ev.endTied_kept (ev : Ev) (r : Nat) : ev.s.Kept (ev.endTied r).s := by
  unfold Ev.endTied
  split
  · exact (ev.abortSetting_tame r).kept
  · exact (ev.s.filterRequests_kept _).via (Ev.fullRelease_tame _ r).kept
  · exact (ev.dangerRelease_tame r).kept
  · exact (ev.fullRelease_tame r).kept

theorem Ev.forcedBorderClear_kept (ev : Ev) (l : Link) (e : Nat) : ev.s.Kept (ev.forcedBorderClear l e).s := by
  refine Ev.inOrder_kept _ _ (fun f hf b => ?_) ev 0
  simp only [List.mem_cons, List.not_mem_nil, or_false] at hf
  rcases hf with rfl | rfl
  · exact (b.changeTrans_tame _ _ _ _ _ _).kept
  · exact State.Kept.foldl Ev.s Ev.endTied Ev.endTied_kept _ b

theorem Ev.executeAux_kept (ev : Ev) (cmd : AuxCmd) (hm : ev.s.mode = .operational) :
    ev.s.Kept (ev.executeAux cmd).s := by
  cases cmd with
  | forcedRouteRelease r => exact (ev.forcedRelease_handedOn r).kept hm
  | sectionReset e => exact State.SameCore.kept (by constructor <;> rfl)
  | auxPointMove e side => exact ev.s.commandPoint_kept e side
  | forcedBorderClear e =>
    unfold Ev.executeAux
    dsimp only
    split
    · exact ev.forcedBorderClear_kept _ e
    · exact .refl _

theorem State.countAux_kept (s : State) : s.Kept ({ s with auxCounter := s.auxCounter + 1 }.latch .aux) :=
  State.SameCore.kept (by constructor <;> rfl)

theorem Ev.confirmed_kept (tag : Half) (ev : Ev) (p : AuxPending) (hm : ev.s.mode = .operational) :
    ev.s.Kept (ev.confirmed tag p).s := by
  have h1 := (Ev.answer_kept ev .auxConfirm tag .accepted).trans (State.clearAux_kept _)
  have h2 := h1.via (Ev.executeAux_kept ((ev.answer .auxConfirm tag .accepted).on State.clearAux) p.cmd
    (h1.mode.trans hm))
  exact h2.trans (State.countAux_kept _)

theorem takeAuxConfirm_kept (tag : Half) (p : List Byte) (s : State) : s.Kept (takeAuxConfirm tag p s) := by
  refine takeRequest_found_kept .auxConfirm tag p (fun s => s.payloadAux p) (Ev.auxConfirm tag) s (fun ha cmd => ?_)
  have hm : (s.taken .c).mode = .operational := State.operational_of_admits ha rfl
  have h (code : ReplyCode) := Ev.answer_kept (Ev.asked s) .auxConfirm tag code
  unfold Ev.auxConfirm
  split
  · exact h _
  · split
    · split
      · exact (h _).trans (Ev.endAux_kept _ _)
      · exact Ev.confirmed_kept tag (Ev.asked s) _ hm
    · exact (h _).trans (Ev.endAux_kept _ _)

theorem takeReadElement_kept (tag : Half) (p : List Byte) (s : State) : s.Kept (takeReadElement tag p s) := by
  refine takeRequest_found_kept .readElement tag p (fun s => s.payloadElem p) (Ev.readElement tag) s (fun _ e => ?_)
  unfold Ev.readElement
  split
  · exact Ev.reply_kept (Ev.asked s) ..
  · exact Ev.answer_kept (Ev.asked s) ..

theorem takeReadRoute_kept (tag : Half) (p : List Byte) (s : State) : s.Kept (takeReadRoute tag p s) :=
  takeRequest_found_kept .readRoute tag p (fun s => s.payloadRoute p)
    (fun ev r => ev.reply .readRoute tag .accepted (.route (ev.s.readRoute r))) s (fun _ _ => Ev.reply_kept (Ev.asked s) ..)

theorem takeReadIndications_kept (tag : Half) (p : List Byte) (s : State) : s.Kept (takeReadIndications tag p s) :=
  takeRequest_kept .readIndications tag p _ s (fun _ => Ev.reply_kept (Ev.asked s) ..)

theorem State.acknowledge_kept (s : State) (set : BitVec 8) : s.Kept (s.acknowledge set) :=
  { State.Kept.refl s with
    lost := fun hl => by
      change (if set.getLsbD Latch.reportOverrun.bit then 0 else s.lost) ≤ 65535
      split
      · omega
      · exact hl }

theorem takeAcknowledgeIndications_kept (tag : Half) (p : List Byte) (s : State) :
    s.Kept (takeAcknowledgeIndications tag p s) :=
  takeRequest_kept .acknowledgeIndications tag p _ s (fun _ =>
    (Ev.answer_kept (Ev.asked s) .acknowledgeIndications tag .accepted).trans (State.acknowledge_kept _ _))

theorem takeSetReportMask_kept (tag : Half) (p : List Byte) (s : State) : s.Kept (takeSetReportMask tag p s) :=
  takeRequest_kept .setReportMask tag p _ s (fun _ =>
    (Ev.answer_kept (Ev.asked s) .setReportMask tag .accepted).trans (State.SameCore.kept (by constructor <;> rfl)))

theorem takeRestart_kept (tag : Half) (p : List Byte) (s : State) : s.Kept (takeRestart tag p s) :=
  takeRequest_kept .restart tag p _ s (fun _ =>
    (Ev.answer_kept (Ev.asked s) .restart tag .accepted).trans (State.SameCore.kept (by constructor <;> rfl)))

theorem Ev.on_kept (ev : Ev) (f : State → State) (h : ev.s.Kept (f ev.s)) : ev.s.Kept (ev.on f).s := h

/-! ### The field link and the events inside the part -/

theorem Ev.elementFault_kept (ev : Ev) (cls : Latch) (e : Nat) (cause : Half) :
    ev.s.Kept (ev.elementFault cls e cause).s := ev.s.latch_kept cls

theorem Ev.endThrow_kept (ev : Ev) (e : Nat) (t : Byte) : ev.s.Kept (ev.endThrow e t).s := by
  have h := ev.s.modElem_kept e (fun r => { r with watch := none, fault := false })
  unfold Ev.endThrow
  dsimp only
  split
  · exact h.via (Ev.elementFault_kept _ _ _ _)
  · exact h

theorem Ev.uncommanded_kept (ev : Ev) (e : Nat) : ev.s.Kept (ev.uncommanded e).s := by
  unfold Ev.uncommanded
  split
  · exact .refl _
  · exact (ev.s.modElem_kept e (fun r => { r with fault := true })).via (Ev.elementFault_kept _ _ _ _)

theorem Ev.applyPoint_kept (ev : Ev) (e : Nat) (x : Reported) (t : Byte) : ev.s.Kept (ev.applyPoint e x t).s := by
  have h : ev.s.Kept (ev.on (fun s => s.reportPoint e x t)).s := State.SameCore.kept (by constructor <;> rfl)
  unfold Ev.applyPoint
  dsimp only
  split
  · exact h
  · split
    · split
      · exact h.trans (Ev.endThrow_kept _ e t)
      · exact h.trans (State.SameCore.kept (by constructor <;> rfl))
    · split
      · exact h.trans (Ev.uncommanded_kept _ e)
      · exact h

theorem Ev.applySlot_kept (ev : Ev) (e : Nat) (code t : Byte) : ev.s.Kept (ev.applySlot e code t).s := by
  unfold Ev.applySlot
  split
  · exact ev.applyPoint_kept _ _ _
  · exact State.SameCore.kept (by constructor <;> rfl)
  · exact State.SameCore.kept (by constructor <;> rfl)
  · exact .refl _

theorem State.foldl_renew_kept (s : State) (es : List Nat) : s.Kept (es.foldl State.renew s) :=
  State.Kept.foldl_state _ (fun b e => b.modElem_kept e _) _ _

/-- What a Status Telegram says of one slot of its FEC (R8). -/
def Ev.applySlotOf (p : List Byte) (ev : Ev) (slot : Nat) : Ev :=
  match ev.s.slotElem (byteAt p 0).toNat slot with
  | some e => ev.applySlot e (byteAt p (2 + slot)) (byteAt p (6 + slot))
  | none => ev

/-- The life count and the slots of an accepted Status Telegram (R8). -/
def Ev.applySlots (ev : Ev) (p : List Byte) : Ev :=
  (List.range 4).foldl (Ev.applySlotOf p) (ev.on (fun s => s.setLife (byteAt p 0).toNat (some (byteAt p 1))))

theorem Ev.applyStatus_eq (ev : Ev) (p : List Byte) : ev.applyStatus p =
    (ev.applySlots p).on (fun s => (s.fecElems (byteAt p 0).toNat).foldl State.renew s) := rfl

theorem Ev.applySlotOf_kept (p : List Byte) (ev : Ev) (slot : Nat) : ev.s.Kept (ev.applySlotOf p slot).s := by
  unfold Ev.applySlotOf
  split
  · exact ev.applySlot_kept _ _ _
  · exact .refl _

theorem Ev.applyStatus_kept (ev : Ev) (p : List Byte) : ev.s.Kept (ev.applyStatus p).s := by
  have h1 := ev.s.setLife_kept (byteAt p 0).toNat (some (byteAt p 1))
  have h2 : ev.s.Kept (ev.applySlots p).s := h1.via (State.Kept.foldl Ev.s (Ev.applySlotOf p) (Ev.applySlotOf_kept p) (List.range 4)
    (ev.on (fun s => s.setLife (byteAt p 0).toNat (some (byteAt p 1)))))
  rw [Ev.applyStatus_eq]
  exact h2.trans (Ev.on_kept _ _ (State.foldl_renew_kept _ _))

theorem takeStatusTelegram_kept (bytes : List Byte) (s : State) : s.Kept (takeStatusTelegram bytes s) := by
  unfold takeStatusTelegram
  split
  · exact Ev.settle_kept ((Ev.start_kept s).trans (Ev.invalidTelegram_kept _ _))
  · refine Ev.settle_kept (((Ev.start_kept s).trans (Ev.validTelegram_kept _ .f)).trans ?_)
    unfold Ev.statusJudged
    dsimp only
    split
    · exact Ev.applyStatus_kept _ _
    · exact .refl _

theorem takeSupervisionLoss_kept (e : Nat) (s : State) : s.Kept (takeSupervisionLoss e s) := by
  unfold takeSupervisionLoss
  split
  · exact Ev.settle_kept ((Ev.start_kept s).trans
      ((State.modElem_kept _ e (fun r => { r with deadline := none, reported := .unknown })).via
        (Ev.elementFault_kept _ _ _ _)))
  · exact .refl s

/-- The throw watch of a point has run out: idle, with the fault mark set (R17). -/
def Ev.throwFailed (s : State) (e : Nat) : Ev :=
  ((Ev.start s).on (fun s => s.modElem e (fun r => { r with watch := none, fault := true }))).elementFault
    .elementFault e FaultCause.throwTimeout.code

/-- A context fails where it awaits a point (R17, R89). -/
def Ev.failAwaitingPoint (e : Nat) (ev : Ev) (c : Nat) : Ev :=
  if ev.s.ctxAwaits e c then ev.failCtx c .pointFailed e true else ev

theorem takeThrowTimeout_eq (e : Nat) (s : State) : takeThrowTimeout e s =
    if s.passes (s.elem e).watch then (contextNumbers.foldl (Ev.failAwaitingPoint e) (Ev.throwFailed s e)).settle
    else s := rfl

theorem Ev.failAwaitingPoint_tame (e : Nat) (ev : Ev) (c : Nat) : ev.s.Tame (ev.failAwaitingPoint e c).s := by
  unfold Ev.failAwaitingPoint
  split
  · exact ev.failCtx_tame _ _ _ _
  · exact .refl _

theorem Ev.throwFailed_kept (s : State) (e : Nat) : s.Kept (Ev.throwFailed s e).s :=
  (s.begun_kept.trans (State.modElem_kept _ e (fun r => { r with watch := none, fault := true }))).trans
    (State.latch_kept _ .elementFault)

theorem takeThrowTimeout_kept (e : Nat) (s : State) : s.Kept (takeThrowTimeout e s) := by
  rw [takeThrowTimeout_eq]
  split
  · exact Ev.settle_kept ((Ev.throwFailed_kept s e).trans
      (State.Tame.foldl Ev.s _ (Ev.failAwaitingPoint_tame e) _ _).kept)
  · exact .refl s

theorem Ev.entryLinkLoss_kept (ev : Ev) (l : Link) : ev.s.Kept (ev.entryLinkLoss l).s := by
  refine State.Kept.foldl Ev.s _ (fun b r => ?_) _ ev
  split
  · exact b.cancelQueued_kept _ _ _
  · split
    · exact (b.failCtx_tame _ _ _ _).kept
    · exact .refl _
  · exact .refl _

theorem Ev.transLinkLoss_tame (ev : Ev) (l : Link) (e : Nat) : ev.s.Tame (ev.transLinkLoss l e).s := by
  unfold Ev.transLinkLoss
  split
  · exact (ev.changeTrans_tame l e _ _ _ _).trans (Ev.failAwaiting_tame _ e .borderLinkLost false)
  · exact .refl _

theorem State.loseBorders_kept (s : State) (es : List Nat) : s.Kept (es.foldl State.loseBorder s) :=
  State.Kept.foldl_state _ (fun b e => b.modElem_kept e _) _ _

theorem Ev.borderLoss_kept (ev : Ev) (l : Link) : ev.s.Kept (ev.borderLoss l).s := by
  unfold Ev.borderLoss
  dsimp only
  refine (ev.s.loseBorders_kept (ev.s.linkElems l)).via ((Ev.entryLinkLoss_kept _ l).trans
    (Ev.inOrder_kept _ _ (fun f hf b => ?_) _ 0))
  obtain ⟨e, -, rfl⟩ := List.mem_map.1 hf
  exact (b.transLinkLoss_tame l e).kept

theorem State.lostPorts_kept (s : State) (x : BitVec 4) : s.Kept { s with lostPorts := x } :=
  State.SameCore.kept (by constructor <;> rfl)

theorem State.losing_kept (s : State) (p : Port) : s.Kept (s.losing p) :=
  ((s.begun_kept.trans (State.setLink_kept _ p { state := .lost })).trans (State.latch_kept _ .linkFault)).trans
    (State.lostPorts_kept _ _)

theorem takeLinkTimerExpiry_kept (p : Port) (s : State) : s.Kept (takeLinkTimerExpiry p s) := by
  unfold takeLinkTimerExpiry
  dsimp only
  split
  · split
    · rw [Ev.linkLost_start]
      have h : s.Kept (Ev.lost s p).s := s.losing_kept p
      cases p with
      | c => exact Ev.settle_kept (h.trans (Ev.endAux_kept _ _))
      | f => exact Ev.settle_kept h
      | b1 => exact Ev.settle_kept (h.trans (Ev.borderLoss_kept _ .b1))
      | b2 => exact Ev.settle_kept (h.trans (Ev.borderLoss_kept _ .b2))
    · refine Ev.settle_kept ((Ev.start_kept s).trans (Ev.on_kept _ _ ?_))
      exact State.setLink_kept _ p _
  · exact .refl s

theorem takeReservation_kept (s : State) : s.Kept (takeReservation s) := by
  cases hn : s.nextReservation with
  | none =>
    rw [takeReservation_of_none hn]
    exact .refl s
  | some cq =>
    obtain ⟨c, q⟩ := cq
    obtain ⟨hm, -, hc⟩ := State.nextReservation_eq_some hn
    rw [takeReservation_of_some hn]
    refine Ev.settle_kept ?_
    have h : s.Kept { s.begun with requests := s.requests.drop 1 } := s.begun_kept.trans s.begun.dropRequest_kept
    rw [Ev.reservation_start]
    split
    · exact h.via (Ev.reserve_kept _ (State.freeCtxNumber_spec hc).1 q _ (h.mode.trans hm))
    · exact h.via (Ev.refuseReservation_kept _ q _)

theorem Ev.actOnExpiry_tame (ev : Ev) (h : HeldTimer) : ev.s.Tame (ev.actOnExpiry h).s := by
  unfold Ev.actOnExpiry
  split
  · exact ev.fullRelease_tame _
  · exact ev.endOverlap_tame _
  · exact ev.fullRelease_tame _
  · exact .refl _

theorem takeReleaseTimerExpiry_kept (i : Nat) (s : State) : s.Kept (takeReleaseTimerExpiry i s) := by
  unfold takeReleaseTimerExpiry
  split
  · next h _ =>
    split
    · have h1 := ((Ev.start s).s.setTimer_tame i none).trans (State.modRoute_tame _ h.owner RouteRec.noTimer)
      have h2 := h1.via (Ev.actOnExpiry_tame ((Ev.start s).on (fun s => (s.setTimer i none).modRoute h.owner
        RouteRec.noTimer)) h)
      exact Ev.settle_kept ((Ev.start_kept s).trans (h2.trans (State.freeTimer_tame _ i)).kept)
    · exact .refl s
  · exact .refl s

theorem takeContextTimerExpiry_kept (c : Nat) (s : State) : s.Kept (takeContextTimerExpiry c s) := by
  unfold takeContextTimerExpiry
  split
  · split
    · refine Ev.settle_kept ((Ev.start_kept s).trans ?_)
      unfold Ev.contextExpiry
      dsimp only
      have h := (Ev.start s).s.setCtxTimer_kept c none
      split
      · exact h.via (Ev.failCtx_tame _ _ _ _ _).kept
      · exact h
    · exact .refl s
  · exact .refl s

theorem takeAuxWindowExpiry_kept (s : State) : s.Kept (takeAuxWindowExpiry s) := by
  unfold takeAuxWindowExpiry
  split
  · exact Ev.settle_kept ((Ev.start_kept s).trans ((Ev.endAux_kept _ _).trans (State.clearAux_kept _)))
  · exact .refl s

theorem takeBorderStatusSend_kept (l : Link) (s : State) : s.Kept (takeBorderStatusSend l s) := by
  unfold takeBorderStatusSend
  split
  · exact s.sendBorderStatus_kept l
  · exact .refl s

theorem takeCommandRefresh_kept (fec : Nat) (s : State) : s.Kept (takeCommandRefresh fec s) := by
  unfold takeCommandRefresh
  split
  · exact s.send_kept _ _
  · exact .refl s

/-- The overrun notice takes the place that a sending has freed. -/
theorem takeReportSend_kept (s : State) : s.Kept (takeReportSend s) := by
  unfold takeReportSend
  split
  · split
    · next r rest hq =>
      have hlen : s.queue.length ≤ 32 → rest.length < 32 := fun hl => by
        rw [hq, List.length_cons] at hl
        omega
      have hone (ho : ∀ e, (s.queue.filter (Report.isElement e)).length ≤ 1) (e : Nat) :
          (rest.filter (Report.isElement e)).length ≤ 1 :=
        (((List.sublist_cons_self r rest).filter _).length_le.trans_eq (by rw [hq])).trans (ho e)
      unfold State.noticeOverrun
      split
      · split
        · exact { State.Kept.refl s with
            queue := fun hl => (List.length_append ..).trans_le (hlen hl)
            queueOne := fun ho e => by
              change ((rest ++ [_]).filter (Report.isElement e)).length ≤ 1
              rw [List.filter_append, List.length_append]
              exact hone ho e
            lost := fun _ => Nat.zero_le _ }
        · exact { State.Kept.refl s with queue := fun hl => (hlen hl).le, queueOne := hone }
      · exact { State.Kept.refl s with queue := fun hl => (hlen hl).le, queueOne := hone }
    · exact .refl s
  · exact .refl s

theorem takeRateTick_kept (k : Nat) (s : State) : s.Kept (takeRateTick k s) := by
  unfold takeRateTick
  split
  · exact { State.Kept.refl s with
      aux := fun ha => by
        change (s.auxTimer.map _).isSome = _
        rw [Option.isSome_map]
        exact ha }
  · exact .refl s

end Sys2Proof.Machine

/-! PROOFS. What every command keeps: the queue of waiting commands, the invariant, and outside OPERATIONAL that no route
becomes CLEARED. -/

namespace Sys2Proof.Machine

/-- What every command keeps. -/
structure State.Held (s t : State) : Prop where
  pending : t.pending = s.pending
  inv : s.Inv → t.Inv
  cleared : s.mode ≠ .operational → ∀ r, (t.route r).state = .cleared → (s.route r).state = .cleared

theorem State.Kept.held {s t : State} (h : s.Kept t) : s.Held t := ⟨h.pending, h.inv, h.cleared⟩

theorem State.Held.trans {s u t : State} (h : s.Held u) (k : u.Held t) (hm : u.mode = .operational → s.mode = .operational) :
    s.Held t :=
  ⟨k.pending.trans h.pending, fun hs => k.inv (h.inv hs),
    fun hn r hr => h.cleared hn r (k.cleared (fun hu => hn (hm hu)) r hr)⟩

/-! ### The resets -/

theorem State.doReset_held (s : State) : s.Held s.doReset := by
  by_cases hv : s.tablesValid = true
  · by_cases hc : tableCrc s.store = s.storedCrc
    · rw [State.doReset_of_valid hv hc]
      exact ⟨rfl, fun k => {
        store := k.store, queue := by simp, queueOne := fun _ => by simp [Report.isElement], requests := by simp [State.resetRuntime]
        safeN := by simp, tick := by simp [State.resetRuntime, tickWrap], lost := by simp [State.resetRuntime], auxTimer := rfl, auxMode := by simp [State.resetRuntime]
        startup := by simp
        map := fun h => by simp [State.resetRuntime, hv] at h
        tables := fun _ => hv, routes := by simp, contexts := by simp }, fun _ r hr => by cases hr⟩
    · rw [State.doReset_of_mismatch hv hc]
      exact ⟨rfl, fun k => {
        store := k.store, queue := by simp, queueOne := fun _ => by simp [Report.isElement]
        requests := by simp [State.resetRuntime], safeN := by simp [State.resetRuntime], tick := by simp [State.resetRuntime, tickWrap], lost := by simp [State.resetRuntime]
        auxTimer := rfl, auxMode := by simp [State.resetRuntime], startup := by simp [State.resetRuntime]
        map := fun _ => rfl, tables := fun h => absurd rfl h, routes := fun _ _ => rfl
        contexts := fun _ _ _ => rfl }, fun _ r hr => by cases hr⟩
  · have hv : s.tablesValid = false := by simpa using hv
    rw [State.doReset_of_invalid hv]
    exact ⟨rfl, fun k => {
      store := k.store, queue := by simp, queueOne := fun _ => by simp [Report.isElement], requests := by simp [State.resetRuntime]
      safeN := by simp [State.resetRuntime], tick := by simp [State.resetRuntime, tickWrap], lost := by simp [State.resetRuntime], auxTimer := rfl
      auxMode := by simp [State.resetRuntime], startup := by simp [State.resetRuntime]
      map := fun _ => rfl, tables := fun h => absurd rfl h, routes := fun _ _ => rfl
      contexts := fun _ _ _ => rfl }, fun _ r hr => by cases hr⟩

/-! ### The tables -/

/-- A request of MAINTENANCE other than a Restart or a Leave Operation is admitted in MAINTENANCE only (R167). -/
theorem State.maintenance_of_admits {s : State} {q : Req} {p : List Byte} (h : s.admits q p = true)
    (hq : q.cls = .maintenance) (hr : q ≠ .restart) (hl : q ≠ .leaveOperation) : s.mode = .maintenance := by
  simp only [State.admits, Bool.and_eq_true, Option.isNone_iff_eq_none] at h
  obtain ⟨⟨-, hm⟩, -⟩ := h
  cases hmode : s.mode <;> simp [hmode, hq, hr, hl, modeAnswer] at hm ⊢

theorem takeRequest_held (q : Req) (tag : Half) (p : List Byte) (body : Ev → Ev) (s : State)
    (h : s.admits q p = true → s.Held (body (Ev.asked s)).settle) : s.Held (takeRequest q tag p body s) :=
  takeRequest_cases q tag p body s (fun code => (s.answered_kept q tag code .none).held) h

/-- The end of an event, where what its owner did is known. -/
theorem Ev.settle_held {s : State} {ev : Ev} (h : s.Held ev.s) (hm : ev.s.mode = .operational → s.mode = .operational) :
    s.Held ev.settle := h.trans ev.settle_tame.kept.held hm

/-- In MAINTENANCE the records of the tables may change, and an invalid mark goes with an empty map. -/
theorem State.retabled_held {s t : State} (hm : s.mode = .maintenance)
    (hf : ∃ store storedCrc valid dmap elems life trans blocked counter, t = { s with
      store := store, storedCrc := storedCrc, tablesValid := valid, dmap := dmap, elems := elems, life := life
      trans := trans, blocked := blocked, auxCounter := counter })
    (hs : s.Inv → Memory.wf t.store = true) (hd : s.Inv → t.tablesValid = false → t.dmap = []) : s.Held t := by
  obtain ⟨store, storedCrc, valid, dmap, elems, life, trans, blocked, counter, rfl⟩ := hf
  exact ⟨rfl, fun k => { k with store := hs k, map := hd k, tables := fun h => absurd hm h }, fun _ _ hr => hr⟩

theorem State.clearValid_held {s : State} (hm : s.mode = .maintenance) : s.Held s.clearValid := by
  rw [State.clearValid_eq]
  refine State.retabled_held hm ⟨_, _, _, _, _, _, _, _, _, rfl⟩ (fun k => k.store) (fun k _ => ?_)
  cases hv : s.tablesValid with
  | true => rfl
  | false => exact k.map hv

theorem State.loadSegment_held {s : State} (p : List Byte) (hm : s.mode = .maintenance) : s.Held (s.loadSegment p) := by
  have h := State.clearValid_held hm
  rw [State.clearValid_eq] at h
  rw [State.loadSegment_eq, State.clearValid_eq]
  exact State.retabled_held hm ⟨_, _, _, _, _, _, _, _, _, rfl⟩ (fun k => Memory.wf_writeAll _ _ _ k.store)
    (fun k => (h.inv k).map)

theorem takeLoadTableSegment_held (tag : Half) (p : List Byte) (s : State) : s.Held (takeLoadTableSegment tag p s) := by
  refine takeRequest_held .loadTableSegment tag p _ s (fun ha => ?_)
  have hm := State.maintenance_of_admits ha rfl (by simp) (by simp)
  have h1 := (s.taken_kept .c).held.trans (State.loadSegment_held (s := s.taken .c) p hm) id
  have hmode : ((s.taken .c).loadSegment p).mode = .maintenance := by
    rw [State.loadSegment_eq, State.clearValid_eq]
    exact hm
  have h2 := h1.trans (Ev.answer_kept ((Ev.asked s).on (fun s => s.loadSegment p)) .loadTableSegment tag .accepted).held
    (fun h => by cases hmode.symm.trans h)
  exact Ev.settle_held h2 (fun h => by cases hmode.symm.trans h)

theorem State.verified_held {s : State} (hm : s.mode = .maintenance) :
    s.Held { s.installTables with blocked := [], auxCounter := 0 } := by
  rw [State.installTables_eq]
  exact State.retabled_held hm ⟨_, _, _, _, _, _, _, _, _, rfl⟩ (fun k => Memory.wf_sortRoutes k.store)
    (fun _ h => by cases h)

theorem takeVerifyTables_held (tag : Half) (p : List Byte) (s : State) : s.Held (takeVerifyTables tag p s) := by
  refine takeRequest_held .verifyTables tag p _ s (fun ha => ?_)
  have hm := State.maintenance_of_admits ha rfl (by simp) (by simp)
  have hstop (ev : Ev) (u : State) (data : ReplyData) (code : ReplyCode) (hu : (s.taken .c).Held u)
      (hum : u.mode = .maintenance) (he : ev.s = u) : s.Held (ev.reply .verifyTables tag code data).settle := by
    have h1 := (s.taken_kept .c).held.trans hu id
    subst he
    exact Ev.settle_held (h1.trans (Ev.reply_kept ev .verifyTables tag code data).held (fun h => by cases hum.symm.trans h))
      (fun h => by cases hum.symm.trans h)
  have hclear := State.clearValid_held (s := s.taken .c) hm
  have hcm : (s.taken .c).clearValid.mode = .maintenance := by
    rw [State.clearValid_eq]
    exact hm
  by_cases hc : tableCrc s.store = word32 (byteAt p 0) (byteAt p 1) (byteAt p 2) (byteAt p 3)
  · cases hk : checkTables s.store with
    | none =>
      rw [Ev.verify_of_sound tag hc hk]
      exact hstop _ _ _ _ (State.verified_held (s := s.taken .c) hm) (by rw [State.installTables_eq]; exact hm) rfl
    | some x =>
      have hv : Ev.verify tag p (Ev.asked s) = ((Ev.asked s).on State.clearValid).reply .verifyTables tag .tableInvalid
          (.record x.1 x.2) := by
        have hk' : checkTables (Ev.asked s).s.store = some (x.1, x.2) := hk
        refine (if_pos hc).trans ?_
        rw [hk']
      rw [hv]
      exact hstop _ _ _ _ hclear hcm rfl
  · have hv : Ev.verify tag p (Ev.asked s) = ((Ev.asked s).on State.clearValid).reply .verifyTables tag .tableMismatch
        (.crc (tableCrc s.store)) := if_neg hc
    rw [hv]
    exact hstop _ _ _ _ hclear hcm rfl

/-! ### The modes -/

theorem takeEnterOperation_held (tag : Half) (p : List Byte) (s : State) : s.Held (takeEnterOperation tag p s) := by
  refine takeRequest_held .enterOperation tag p _ s (fun ha => ?_)
  have hm := State.mode_of_admits_enterOperation ha
  cases hv : s.tablesValid with
  | true =>
    rw [Ev.asked_enterOperation_of_valid tag hv hm]
    have h1 := (s.taken_kept .c).trans (State.send_kept _ .c
      (.reply Req.enterOperation.cls.code Req.enterOperation.code tag .accepted .none))
    refine Ev.settle_held (h1.held.trans (u := (s.taken .c).replying .enterOperation tag .accepted .none)
      ⟨rfl, fun k => ?_, fun _ _ hr => hr⟩ id) (fun h => by cases h)
    have hnone : ((s.taken .c).replying .enterOperation tag .accepted .none).auxPending = none := by
      by_contra hsome
      cases hm.symm.trans (k.auxMode (Option.isSome_iff_ne_none.2 hsome))
    exact { k with
      safeN := by simp, startup := by simp, tables := fun _ => hv
      auxMode := fun h => absurd (Option.isSome_iff_ne_none.1 h) (fun hne => hne hnone)
      routes := by simp, contexts := by simp }
  | false =>
    rw [Ev.asked_enterOperation_of_invalid tag hv, Ev.asked_reply_settle]
    exact (s.answered_kept _ _ _ _).held

theorem takeStartupEnd_held (s : State) : s.Held (takeStartupEnd s) := by
  unfold takeStartupEnd
  split
  · next h =>
    refine Eq.subst (motive := s.Held) (((s.alike_begun.trans (s.begun.alike_entering .operational true none)).settle
      [⟨.route, .mode (some s.mode) .operational .startupEnd⟩]).symm) ?_
    refine ⟨(State.reporting_kept _ _).pending, fun k => (State.reporting_kept _ _).inv ?_, fun _ r hr => ?_⟩
    · exact { k with
        safeN := by simp
        auxMode := fun _ => rfl
        startup := by simp
        tables := fun _ => k.tables (by simp [h.1])
        routes := by simp, contexts := by simp }
    · rw [State.reporting_reports] at hr
      exact hr
  · exact (State.Kept.refl s).held

theorem State.foldl_commandHold_kept (s : State) (es : List Nat) : s.Kept (es.foldl State.commandHold s) :=
  State.Kept.foldl_state _ (fun b e => b.modElem_kept e _) _ _

theorem State.pointsToHold_kept (s : State) : s.Kept s.pointsToHold := s.foldl_commandHold_kept _

/-- A part at rest returns to MAINTENANCE (R185). -/
theorem State.retire_held {s : State} (hi : s.idleRoutes = true) (hm : s.mode = .operational) :
    s.Held s.maintaining.withoutAux := by
  obtain ⟨hfree, hctx, -⟩ := State.idleRoutes_spec hi
  refine ⟨rfl, fun k => ?_, fun hn => absurd hm hn⟩
  have haux : s.withoutAux.auxTimer.isSome = s.withoutAux.auxPending.isSome := s.withoutAux_kept.aux k.auxTimer
  have hdead : s.startupDeadline = none := by
    by_contra hsome
    cases hm.symm.trans (k.startup.1 (Option.isSome_iff_ne_none.2 hsome))
  exact { k with
    safeN := by simp [State.maintaining, State.withoutAux]
    auxTimer := haux, auxMode := fun h => by cases h
    startup := by simp [State.maintaining, State.withoutAux, hdead]
    tables := fun h => absurd rfl h, routes := fun _ => hfree, contexts := fun _ => hctx }

theorem takeLeaveOperation_held (tag : Half) (p : List Byte) (s : State) : s.Held (takeLeaveOperation tag p s) := by
  refine takeRequest_held .leaveOperation tag p _ s (fun ha => ?_)
  have hm : s.mode = .operational := by
    simp only [State.admits, Bool.and_eq_true, Option.isNone_iff_eq_none] at ha
    obtain ⟨⟨-, hm⟩, -⟩ := ha
    cases hmode : s.mode <;> simp [hmode, modeAnswer, Req.cls] at hm ⊢
  by_cases hi : s.idleRoutes = true
  · obtain ⟨os, hos⟩ := Ev.asked_leaveOperation tag hi
    rw [hos]
    have h1 := (s.taken_kept .c).trans (State.send_kept _ .c
      (.reply Req.leaveOperation.cls.code Req.leaveOperation.code tag .accepted .none))
    have h2 : s.Held (s.leaving tag) := h1.held.trans (State.retire_held hi hm) (fun _ => hm)
    exact Ev.settle_held (h2.trans (s.leaving tag).pointsToHold_kept.held (fun _ => hm)) (fun _ => hm)
  · have hb : Ev.leaveOperation tag (Ev.asked s) = (Ev.asked s).answer .leaveOperation tag .busyRoutes := if_neg hi
    rw [hb, Ev.asked_answer_settle]
    exact (s.answered_kept _ _ _ _).held

/-! ### The background check -/

theorem Ev.settingSafeStop_kept (ev : Ev) : ev.s.Kept ev.settingSafeStop.s := by
  refine Ev.inOrder_kept _ _ (fun f hf b => ?_) ev 0
  rcases List.mem_append.1 hf with h | h
  · obtain ⟨q, -, rfl⟩ := List.mem_map.1 h
    exact b.cancelQueued_kept _ _ _
  · obtain ⟨c, -, rfl⟩ := List.mem_map.1 h
    dsimp only
    split
    · exact (b.failCtx_tame _ _ _ _).kept
    · exact .refl _

theorem Ev.monitorSafeStop_tame (ev : Ev) : ev.s.Tame ev.monitorSafeStop.s := by
  refine State.Tame.foldl Ev.s _ (fun b r => ?_) _ ev
  split
  · next h => exact b.revert_tame r _ (by simp [h])
  · exact b.modRoute_tame r (fun w => { w with clearWanted := false })
  · exact .refl _

/-- The mode becomes SAFE_STOP (R188). -/
def State.stopping (s : State) : State := { s with mode := .safeStop, safeN := false, startupDeadline := none }

/-- The event of an entry into SAFE_STOP once the mode has changed. -/
theorem Ev.enterSafeStop_eq (ev : Ev) : ∃ os, ev.enterSafeStop =
    (⟨ev.before, ev.s.stopping, os, ev.reached⟩ : Ev).inOrder .safeStop 1
      [Ev.settingSafeStop, Ev.monitorSafeStop, fun ev => ev.endAux (.discarded .modeChange)] := ⟨_, rfl⟩

theorem Ev.enterSafeStop_kept (ev : Ev) :
    ev.s.stopping.Kept ev.enterSafeStop.s ∧ ev.enterSafeStop.s.auxPending = none := by
  obtain ⟨os, hos⟩ := ev.enterSafeStop_eq
  rw [hos]
  refine ⟨Ev.inOrder_kept _ _ (fun f hf b => ?_) (⟨ev.before, ev.s.stopping, os, ev.reached⟩ : Ev) 1, ?_⟩
  · simp only [List.mem_cons, List.not_mem_nil, or_false] at hf
    rcases hf with rfl | rfl | rfl
    · exact b.settingSafeStop_kept
    · exact b.monitorSafeStop_tame.kept
    · exact b.endAux_kept _
  · change (Ev.endAux _ _).s.auxPending = none
    obtain ⟨ps, hps⟩ := Ev.endAux_eq (_ : Ev) (.discarded .modeChange)
    rw [hps]
    rfl

/-- SAFE_STOP keeps the invariant, once the auxiliary command that was pending is discarded. -/
theorem State.Kept.inv_of_stopping {s t : State} (h : s.stopping.Kept t) (ha : t.auxPending = none)
    (hm : s.mode ≠ .maintenance) (k : s.Inv) : t.Inv where
  store := by rw [h.store]; exact k.store
  queue := h.queue k.queue
  queueOne := h.queueOne k.queueOne
  requests := h.requests k.requests
  safeN := by rw [h.safeN, h.mode]; simp [State.stopping]
  tick := by rw [h.tick]; exact k.tick
  lost := h.lost k.lost
  auxTimer := h.aux k.auxTimer
  auxMode hsome := by simp [ha] at hsome
  startup := by rw [h.startup, h.mode]; simp [State.stopping]
  map hv := by rw [h.dmap]; exact k.map (by rw [h.tablesValid] at hv; exact hv)
  tables _ := by rw [h.tablesValid]; exact k.tables hm
  routes hn := by rw [h.mode] at hn; cases hn
  contexts hn := by rw [h.mode] at hn; cases hn

theorem takeBackgroundCheck_held (s : State) : s.Held (takeBackgroundCheck s) := by
  unfold takeBackgroundCheck
  split
  · next hd =>
    split
    · exact (State.Kept.refl s).held
    · have h1 : s.Kept ((Ev.start s).tableFault .backgroundCheck).s := s.begun_kept.trans (State.latch_kept _ .tableFault)
      unfold Ev.checkFailed
      dsimp only
      split
      · have hm1 : ((Ev.start s).tableFault .backgroundCheck).s.mode ≠ .maintenance := by
          rw [h1.mode]
          exact hd.2.2
        obtain ⟨h2, ha⟩ := ((Ev.start s).tableFault .backgroundCheck).enterSafeStop_kept
        have hms : ((Ev.start s).tableFault .backgroundCheck).enterSafeStop.s.mode = .safeStop := h2.mode
        refine Ev.settle_held ⟨h2.pending.trans h1.pending, fun k => h2.inv_of_stopping ha hm1 (h1.inv k),
          fun hn r hr => ?_⟩ (fun h => by cases hms.symm.trans h)
        exact h1.cleared hn r (h2.cleared (fun h => by cases h) r hr)
      · exact (Ev.settle_kept h1).held
  · exact (State.Kept.refl s).held

/-! ### Every command -/

theorem takeReq_held (q : Req) (tag : Half) (p : List Byte) (s : State) : s.Held (takeReq q tag p s) := by
  cases q with
  | setRoute => exact (takeSetRoute_kept tag p s).held
  | cancelRoute => exact (takeCancelRoute_kept tag p s).held
  | reSignal => exact (takeReSignal_kept tag p s).held
  | movePoint => exact (takeMovePoint_kept tag p s).held
  | blockElement => exact (takeBlockElement_kept tag p s).held
  | unblockElement => exact (takeUnblockElement_kept tag p s).held
  | auxPrepare => exact (takeAuxPrepare_kept tag p s).held
  | auxConfirm => exact (takeAuxConfirm_kept tag p s).held
  | readElement => exact (takeReadElement_kept tag p s).held
  | readRoute => exact (takeReadRoute_kept tag p s).held
  | readIndications => exact (takeReadIndications_kept tag p s).held
  | acknowledgeIndications => exact (takeAcknowledgeIndications_kept tag p s).held
  | setReportMask => exact (takeSetReportMask_kept tag p s).held
  | loadTableSegment => exact takeLoadTableSegment_held tag p s
  | verifyTables => exact takeVerifyTables_held tag p s
  | enterOperation => exact takeEnterOperation_held tag p s
  | leaveOperation => exact takeLeaveOperation_held tag p s
  | restart => exact (takeRestart_kept tag p s).held

theorem exec_request (q : Req) (tag : Half) (p : List Byte) (s : State) :
    exec (requestInstr q tag p) s = .next (takeReq q tag p s) := by
  cases q <;> rfl

theorem takeUnknownKind_held (bytes : List Byte) (s : State) : s.Held (takeUnknownKind bytes s) := by
  unfold takeUnknownKind
  split
  · exact (Ev.settle_kept ((Ev.start_kept s).trans (Ev.invalidTelegram_kept _ _))).held
  · split
    · exact takeReq_held _ _ _ s
    · exact (Ev.settle_kept (((Ev.start_kept s).trans (Ev.validTelegram_kept _ .c)).trans (State.send_kept _ _ _))).held

theorem takeOffer_kept (l : Link) (p : List Byte) (s : State) : s.Kept (takeOffer l p s) :=
  takeBorder_kept l _ _ s (fun ev => ev.offer_kept l _)

theorem takeAccept_kept (l : Link) (p : List Byte) (s : State) : s.Kept (takeAccept l p s) :=
  takeBorder_kept l (borderTransactionFits p) (fun ev => ev.onBorder l (borderTxOf .accept p) (ev.accept l (borderTxOf .accept p))) s
    (fun ev => ev.onBorder_kept l (borderTxOf .accept p) (ev.accept l (borderTxOf .accept p))
      (fun e => (ev.accept_tame l (borderTxOf .accept p) e).kept))

theorem takeDecline_kept (l : Link) (p : List Byte) (s : State) : s.Kept (takeDecline l p s) :=
  takeBorder_kept l (borderTransactionFits p) (fun ev => ev.onBorder l (borderTxOf .decline p) (ev.decline l (borderTxOf .decline p))) s
    (fun ev => ev.onBorder_kept l (borderTxOf .decline p) (ev.decline l (borderTxOf .decline p))
      (fun e => (ev.decline_tame l (borderTxOf .decline p) e).kept))

theorem takeWithdraw_kept (l : Link) (p : List Byte) (s : State) : s.Kept (takeWithdraw l p s) :=
  takeBorder_kept l (borderTransactionFits p) (fun ev => ev.onBorder l (borderTxOf .withdraw p) (ev.withdraw l (borderTxOf .withdraw p))) s
    (fun ev => ev.onBorder_kept l (borderTxOf .withdraw p) (ev.withdraw l (borderTxOf .withdraw p))
      (ev.withdraw_kept l (borderTxOf .withdraw p)))

theorem takeHandback_kept (l : Link) (p : List Byte) (s : State) : s.Kept (takeHandback l p s) :=
  takeBorder_kept l (borderTransactionFits p) (fun ev => ev.onBorder l (borderTxOf .handback p) (ev.handback l (borderTxOf .handback p))) s
    (fun ev => ev.onBorder_kept l (borderTxOf .handback p) (ev.handback l (borderTxOf .handback p))
      (fun e => (ev.handback_tame l (borderTxOf .handback p) e).kept))

theorem takeBorderStatus_kept (l : Link) (p : List Byte) (s : State) : s.Kept (takeBorderStatus l p s) :=
  takeBorder_kept l _ _ s (fun ev => ev.borderStatus_kept l p)

theorem takeInvalidBorderTelegram_kept (l : Link) (bytes : List Byte) (s : State) :
    s.Kept (takeInvalidBorderTelegram l bytes s) := by
  unfold takeInvalidBorderTelegram
  split
  · exact takeBorderStatus_kept _ _ s
  · exact takeOffer_kept _ _ s
  · exact takeAccept_kept _ _ s
  · exact takeDecline_kept _ _ s
  · exact takeWithdraw_kept _ _ s
  · exact takeHandback_kept _ _ s
  · exact Ev.settle_kept ((Ev.start_kept s).trans (Ev.invalidTelegram_kept _ _))

theorem exec_request_held (q : Req) (tag : Half) (p : List Byte) (s t : State)
    (h : exec (requestInstr q tag p) s = .next t) : s.Held t :=
  Host.Outcome.next.inj ((exec_request q tag p s).symm.trans h) ▸ takeReq_held q tag p s

/-- Every command. -/
theorem exec_held (i : Instr) (s t : State) (h : exec i s = .next t) : s.Held t := by
  cases i with
  | powerOnReset =>
    have ht : s.doReset = t := Host.Outcome.next.inj h
    exact ht ▸ s.doReset_held
  | restart tag p => exact exec_request_held .restart tag p s t h
  | restartReset =>
    have ht : takeRestartReset s = t := Host.Outcome.next.inj h
    refine ht ▸ ?_
    unfold takeRestartReset
    split
    · exact s.doReset_held
    · exact (State.Kept.refl s).held
  | setRoute tag p => exact exec_request_held .setRoute tag p s t h
  | cancelRoute tag p => exact exec_request_held .cancelRoute tag p s t h
  | reSignal tag p => exact exec_request_held .reSignal tag p s t h
  | movePoint tag p => exact exec_request_held .movePoint tag p s t h
  | blockElement tag p => exact exec_request_held .blockElement tag p s t h
  | unblockElement tag p => exact exec_request_held .unblockElement tag p s t h
  | auxPrepare tag p => exact exec_request_held .auxPrepare tag p s t h
  | auxConfirm tag p => exact exec_request_held .auxConfirm tag p s t h
  | readElement tag p => exact exec_request_held .readElement tag p s t h
  | readRoute tag p => exact exec_request_held .readRoute tag p s t h
  | readIndications tag p => exact exec_request_held .readIndications tag p s t h
  | acknowledgeIndications tag p => exact exec_request_held .acknowledgeIndications tag p s t h
  | setReportMask tag p => exact exec_request_held .setReportMask tag p s t h
  | loadTableSegment tag p => exact exec_request_held .loadTableSegment tag p s t h
  | verifyTables tag p => exact exec_request_held .verifyTables tag p s t h
  | enterOperation tag p => exact exec_request_held .enterOperation tag p s t h
  | leaveOperation tag p => exact exec_request_held .leaveOperation tag p s t h
  | unknownKind bytes => exact Host.Outcome.next.inj h ▸ takeUnknownKind_held bytes s
  | statusTelegram bytes => exact Host.Outcome.next.inj h ▸ (takeStatusTelegram_kept bytes s).held
  | borderStatus l p => exact Host.Outcome.next.inj h ▸ (takeBorderStatus_kept l p s).held
  | offer l p => exact Host.Outcome.next.inj h ▸ (takeOffer_kept l p s).held
  | accept l p => exact Host.Outcome.next.inj h ▸ (takeAccept_kept l p s).held
  | decline l p => exact Host.Outcome.next.inj h ▸ (takeDecline_kept l p s).held
  | withdraw l p => exact Host.Outcome.next.inj h ▸ (takeWithdraw_kept l p s).held
  | handback l p => exact Host.Outcome.next.inj h ▸ (takeHandback_kept l p s).held
  | invalidBorderTelegram l bytes => exact Host.Outcome.next.inj h ▸ (takeInvalidBorderTelegram_kept l bytes s).held
  | reservation => exact Host.Outcome.next.inj h ▸ (takeReservation_kept s).held
  | supervisionLoss e => exact Host.Outcome.next.inj h ▸ (takeSupervisionLoss_kept e s).held
  | throwTimeout e => exact Host.Outcome.next.inj h ▸ (takeThrowTimeout_kept e s).held
  | linkTimerExpiry p => exact Host.Outcome.next.inj h ▸ (takeLinkTimerExpiry_kept p s).held
  | releaseTimerExpiry i => exact Host.Outcome.next.inj h ▸ (takeReleaseTimerExpiry_kept i s).held
  | contextTimerExpiry c => exact Host.Outcome.next.inj h ▸ (takeContextTimerExpiry_kept c s).held
  | auxWindowExpiry => exact Host.Outcome.next.inj h ▸ (takeAuxWindowExpiry_kept s).held
  | startupEnd => exact Host.Outcome.next.inj h ▸ takeStartupEnd_held s
  | backgroundCheck => exact Host.Outcome.next.inj h ▸ takeBackgroundCheck_held s
  | borderStatusSend l => exact Host.Outcome.next.inj h ▸ (takeBorderStatusSend_kept l s).held
  | commandRefresh fec => exact Host.Outcome.next.inj h ▸ (takeCommandRefresh_kept fec s).held
  | reportSend => exact Host.Outcome.next.inj h ▸ (takeReportSend_kept s).held
  | rateTick k => exact Host.Outcome.next.inj h ▸ (takeRateTick_kept k s).held

/-- The queue of waiting commands is no part of the invariant. -/
theorem State.Inv.withPending {s : State} (k : s.Inv) (q : List Instr) : ({ s with pending := q } : State).Inv := { k with }

/-- A part that idles keeps the invariant (log entries 1 and 2). -/
theorem State.Inv.idle {s : State} (k : s.Inv) : s.idle.Inv := by
  unfold State.idle
  split
  · exact { k with }
  · exact { k with }
  · split
    · exact { k with }
    · exact { k with tick := Nat.mod_lt _ (by decide) }

end Sys2Proof.Machine

section

open Sys2Proof Sys2Proof.Machine

/-- Settles O6: what each command keeps, and the idle step. -/
theorem stepKeepsInvariant : Obligations.StepKeepsInvariant := by
  intro s t k h
  unfold step at h
  split at h
  · exact (exec_held _ _ t h).inv (k.withPending _)
  · cases h
    exact k.idle

/-- Settles O3. -/
theorem commandsLeaveQueue : Obligations.CommandsLeaveQueue := fun i s t h => (exec_held i s t h).pending

/-- Settles O8: only the Route Monitor clears a route, and its first condition is the mode OPERATIONAL. -/
theorem noRouteClearsOutsideOperational : Obligations.NoRouteClearsOutsideOperational :=
  fun i s t r hm h hr => (exec_held i s t h).cleared hm r hr

end

/-! PROOF SUPPORT. The failure of a context, once for all its causes (R89, R90): what it leaves of the contexts, the routes,
the elements and the transactions, what it sends and what it raises. -/

namespace Sys2Proof.Machine

/-! ### The release of its route -/

theorem State.foldl_dropClaim_others (fs : List FlankRec) (s : State) :
    (fs.foldl State.dropClaim s).contexts = s.contexts ∧ (fs.foldl State.dropClaim s).ctxTimers = s.ctxTimers ∧
    (fs.foldl State.dropClaim s).routes = s.routes := by
  rw [State.foldl_dropClaim_frame]
  exact ⟨rfl, rfl, rfl⟩

theorem State.dropClaims_others (s : State) (r : Nat) (p : FlankRec → Bool) :
    (s.dropClaims r p).contexts = s.contexts ∧ (s.dropClaims r p).ctxTimers = s.ctxTimers ∧
    ∀ k, (s.dropClaims r p).route k =
      if k = r then { s.route r with flank := (s.route r).flank.filter (fun f => !p f) } else s.route k := by
  obtain ⟨hc, ht, hr⟩ := State.foldl_dropClaim_others ((s.route r).flank.filter p) s
  have hr' : (((s.route r).flank.filter p).foldl State.dropClaim s).route = s.route := by
    funext k
    exact congrArg (fun t => tblGet ({} : RouteRec) t k) hr
  unfold State.dropClaims
  dsimp only
  refine ⟨hc, ht, fun k => ?_⟩
  rw [State.route_modRoute, hr']

theorem State.unlockAll_others (s : State) (r : Nat) :
    (s.unlockAll r).contexts = s.contexts ∧ (s.unlockAll r).ctxTimers = s.ctxTimers ∧ (s.unlockAll r).route = s.route := by
  unfold State.unlockAll State.route
  rw [State.foldl_unlock_frame]
  exact ⟨rfl, rfl, rfl⟩

/-- Every context, context timer and route after the release of a failed context's route (R90). -/
theorem State.releaseSetting_others (s : State) (c r k : Nat) :
    (s.releaseSetting c r).ctx k = (if k = c then none else s.ctx k) ∧
    (s.releaseSetting c r).ctxTimer k = (if k = c then none else s.ctxTimer k) ∧
    (s.releaseSetting c r).route k = if k = r then {} else s.route k := by
  obtain ⟨hc1, ht1, hr1⟩ := s.unlockAll_others r
  obtain ⟨hc2, ht2, hr2⟩ := (s.unlockAll r).dropClaims_others r (fun _ => true)
  unfold State.releaseSetting
  refine ⟨?_, ?_, ?_⟩
  · rw [State.ctx_freeCtx, State.ctx, State.ctx, State.setRoute, hc2, hc1]
  · rw [State.ctxTimer_freeCtx, State.ctxTimer, State.ctxTimer, State.setRoute, ht2, ht1]
  · have h (u : State) : (u.freeCtx c).route = u.route := rfl
    rw [h, State.route_setRoute, hr2, hr1]
    split <;> rfl

/-! ### The Offer that is withdrawn -/

theorem Ev.withdrawOffer_of_over (ev : Ev) (o : Option Byte) (dest : Nat) (x : Reason)
    (h : (ev.s.transOf dest).state ≠ .offerSent ∧ (ev.s.transOf dest).state ≠ .heldOut) :
    ev.withdrawOffer o dest x = ev := by
  unfold Ev.withdrawOffer
  split
  · split
    · next hs => exact absurd hs h.1
    · next hs => exact absurd hs h.2
    · rfl
  · rfl

theorem Ev.withdrawOffer_of_standing (ev : Ev) {ref : Byte} {dest : Nat} {l : Link} (x : Reason)
    (hl : ev.s.elemLink dest = some l)
    (h : (ev.s.transOf dest).state = .offerSent ∨ (ev.s.transOf dest).state = .heldOut) :
    ev.withdrawOffer (some ref) dest x = ev.sendWithdraw l dest ref x := by
  unfold Ev.withdrawOffer
  rw [hl]
  rcases h with h | h <;> simp only [h]

theorem Ev.sendWithdraw_s (ev : Ev) (l : Link) (e : Nat) (ref : Byte) (x : Reason) : (ev.sendWithdraw l e ref x).s =
    (ev.s.send l.port (.transaction (plainTx .withdraw (ev.s.pointByte e) ref x.code))).setTrans e {} := rfl

theorem Ev.withdrawOffer_before (ev : Ev) (o : Option Byte) (dest : Nat) (x : Reason) :
    (ev.withdrawOffer o dest x).before = ev.before := by
  unfold Ev.withdrawOffer
  split
  · split <;> rfl
  · rfl

theorem Ev.offers_kept_withdrawOffer (ev : Ev) (o : Option Byte) (dest : Nat) (x : Reason) :
    ev.offers <+: (ev.withdrawOffer o dest x).offers := by
  unfold Ev.withdrawOffer
  split
  · split
    · exact List.prefix_append _ _
    · exact List.prefix_append _ _
    · exact List.prefix_rfl
  · exact List.prefix_rfl

/-- What an Offer's withdrawal leaves alone. -/
theorem Ev.withdrawOffer_others (ev : Ev) (o : Option Byte) (dest : Nat) (x : Reason) :
    (ev.withdrawOffer o dest x).s.ctx = ev.s.ctx ∧ (ev.withdrawOffer o dest x).s.ctxTimer = ev.s.ctxTimer ∧
    (ev.withdrawOffer o dest x).s.route = ev.s.route ∧ (ev.withdrawOffer o dest x).s.elem = ev.s.elem ∧
    (ev.withdrawOffer o dest x).s.desig = ev.s.desig ∧ (ev.withdrawOffer o dest x).s.routeKeyOf = ev.s.routeKeyOf := by
  rw [Ev.withdrawOffer_s]
  exact ⟨rfl, rfl, rfl, rfl, rfl, rfl⟩

/-! ### The failure -/

/-- The report of a failed context's route (R89). -/
def State.refusedOffer (s : State) (x : Ctx) (reason : Reason) (named : Nat) : Offer :=
  s.routeOffer x.route (s.route x.route) (.refused reason (s.desig named))

/-- What the failure of a context leaves; `w` is the event of its Offer's withdrawal (R89, R90). -/
structure Ev.Failed (a b w : Ev) (c : Nat) (x : Ctx) (reason : Reason) (named : Nat) (d : Bool) : Prop where
  before : b.before = a.before
  ctx : ∀ k, b.s.ctx k = if k = c then none else a.s.ctx k
  ctxTimer : ∀ k, b.s.ctxTimer k = if k = c then none else a.s.ctxTimer k
  route : ∀ k, b.s.route k = if k = x.route then {} else a.s.route k
  unlocked : ∀ k, (b.s.elem k).lockOwner ≠ some x.route
  claims : ∀ k, (b.s.elem k).claims =
    (a.s.elem k).claims - ((a.s.route x.route).flank.filter (fun f => f.elem == k)).length
  trans : b.s.transOf = w.s.transOf
  sent : w.s.sent <+: b.s.sent
  silent : d = false → b.s.sent = w.s.sent ∧ b.offers = w.offers ++ [a.s.refusedOffer x reason named]
  offers : a.offers <+: b.offers
  refused : b.raised .route (a.s.refusedOffer x reason named).rep
  handed : HandedOn a.s b.s

/-- What does not read the telegrams sent. -/
theorem State.reads_of_sent {t u : State} {l : List Sent} (h : t = { u with sent := l }) :
    t.ctx = u.ctx ∧ t.ctxTimer = u.ctxTimer ∧ t.route = u.route ∧ t.elem = u.elem ∧ t.transOf = u.transOf := by
  subst h
  exact ⟨rfl, rfl, rfl, rfl, rfl⟩

/-- What the failure of a context leaves, given the state in which its route was released. -/
theorem Ev.failed_of_releaseSetting {ev w b : Ev} {c : Nat} {x : Ctx} {reason : Reason} {named : Nat} {d : Bool}
    (hw : w.s.ctx = ev.s.ctx ∧ w.s.ctxTimer = ev.s.ctxTimer ∧ w.s.route = ev.s.route ∧ w.s.elem = ev.s.elem)
    (hs : b.s = { w.s.releaseSetting c x.route with sent := b.s.sent }) (hbefore : b.before = ev.before) (hoffers : ev.offers <+: b.offers)
    (hsent : w.s.sent <+: b.s.sent)
    (hsilent : d = false → b.s.sent = w.s.sent ∧ b.offers = w.offers ++ [ev.s.refusedOffer x reason named])
    (hrefused : b.raised .route (ev.s.refusedOffer x reason named).rep) (hhanded : HandedOn ev.s b.s) :
    Ev.Failed ev b w c x reason named d := by
  obtain ⟨hctx, htimer, hroute, helem⟩ := hw
  have hothers := w.s.releaseSetting_others c x.route
  obtain ⟨-, -, -, hunlocked, hclaims, htrans⟩ := w.s.releaseSetting_released c x.route
  obtain ⟨h1, h2, h3, h4, h5⟩ := State.reads_of_sent hs
  rw [← h1, ← h2, ← h3] at hothers
  rw [← h4] at hunlocked hclaims
  rw [← h5] at htrans
  exact {
    before := hbefore
    ctx := fun k => by rw [← hctx]; exact (hothers k).1
    ctxTimer := fun k => by rw [← htimer]; exact (hothers k).2.1
    route := fun k => by rw [← hroute]; exact (hothers k).2.2
    unlocked := hunlocked
    claims := fun k => by rw [← hroute, ← helem]; exact hclaims k
    trans := htrans
    sent := hsent
    silent := hsilent
    offers := hoffers
    refused := hrefused
    handed := hhanded }

theorem Ev.failCtx_failed (ev : Ev) {c : Nat} {x : Ctx} (reason : Reason) (named : Nat) (d : Bool)
    (hx : ev.s.ctx c = some x) :
    Ev.Failed ev (ev.failCtx c reason named d) (ev.withdrawOffer x.offerRef (ev.s.rrow x.route).dest reason) c x reason
      named d := by
  have hhanded := ev.failCtx_handedOn c reason named d
  obtain ⟨hctx, htimer, hroute, helem, hdesig, hkey⟩ :=
    ev.withdrawOffer_others x.offerRef (ev.s.rrow x.route).dest reason
  have hoffers := ev.offers_kept_withdrawOffer x.offerRef (ev.s.rrow x.route).dest reason
  have hbefore := ev.withdrawOffer_before x.offerRef (ev.s.rrow x.route).dest reason
  rw [Ev.failCtx_eq _ _ _ _ hx] at hhanded ⊢
  generalize ev.withdrawOffer x.offerRef (ev.s.rrow x.route).dest reason = w at *
  obtain ⟨hd', hk'⟩ := w.s.releaseSetting_tables c x.route
  have hoffer : (w.s.releaseSetting c x.route).routeOffer x.route (ev.s.route x.route)
      (.refused reason ((w.s.releaseSetting c x.route).desig named)) = ev.s.refusedOffer x reason named := by
    simp only [State.routeOffer, State.refusedOffer, hd', hk', hdesig, hkey]
  have hw := And.intro hctx (And.intro htimer (And.intro hroute helem))
  dsimp only at hhanded ⊢
  cases d with
  | false =>
    have hsent := w.s.releaseSetting_sent c x.route
    refine Ev.failed_of_releaseSetting hw rfl hbefore (hoffers.trans (List.prefix_append _ _))
      (hsent.symm ▸ List.prefix_rfl) (fun _ => ⟨hsent, by rw [← hoffer]; rfl⟩) ?_ hhanded
    exact ⟨_, List.mem_append_right _ (List.mem_singleton_self _), rfl, by rw [← hoffer]; rfl⟩
  | true =>
    have hs := Ev.refuse_s (w.on (fun s => s.releaseSetting c x.route)) x.route (ev.s.route x.route) reason named
    have hb := Ev.refuse_before (w.on (fun s => s.releaseSetting c x.route)) x.route (ev.s.route x.route) reason named
    have hr := Ev.raised_refuse (w.on (fun s => s.releaseSetting c x.route)) x.route (ev.s.route x.route) reason named
    have ho := Ev.offers_kept_inOrder (w.on (fun s => s.releaseSetting c x.route)) (.failure x.route) 0
      [fun b => b.routeReport x.route (ev.s.route x.route) (.refused reason (b.s.desig named)),
        fun b => b.declineOrigin x.route (ev.s.route x.route).origin reason]
    have hp := (Ev.refuse_tame (w.on (fun s => s.releaseSetting c x.route)) x.route (ev.s.route x.route) reason
      named).handed.sent
    change HandedOn ev.s (Ev.refuse _ _ _ _ _).s at hhanded
    change Ev.Failed ev (Ev.refuse _ _ _ _ _) w c x reason named true
    change w.offers <+: (Ev.refuse _ _ _ _ _).offers at ho
    generalize Ev.refuse (w.on (fun s => s.releaseSetting c x.route)) x.route (ev.s.route x.route) reason named = b at *
    exact Ev.failed_of_releaseSetting hw hs (hb.trans hbefore) (hoffers.trans ho)
      ((w.s.releaseSetting_sent c x.route).symm ▸ hp) (fun h => by cases h) (hoffer ▸ hr) hhanded

/-- A failure whose transaction still stands withdraws its Offer (R89, R148). -/
theorem Ev.Failed.withdrawn {a b : Ev} {c : Nat} {x : Ctx} {reason : Reason} {named : Nat} {d : Bool}
    (h : Ev.Failed a b (a.withdrawOffer x.offerRef (a.s.rrow x.route).dest reason) c x reason named d) {ref : Byte}
    {l : Link} (ho : x.offerRef = some ref) (hl : a.s.elemLink (a.s.rrow x.route).dest = some l)
    (hs : (a.s.transOf (a.s.rrow x.route).dest).state = .offerSent ∨
      (a.s.transOf (a.s.rrow x.route).dest).state = .heldOut) :
    b.s.transOf (a.s.rrow x.route).dest = {} ∧
    a.s.sent ++ [⟨l.port, .transaction (plainTx .withdraw (a.s.pointByte (a.s.rrow x.route).dest) ref reason.code)⟩]
      <+: b.s.sent := by
  have htrans := h.trans
  have hsent := h.sent
  rw [ho, Ev.withdrawOffer_of_standing a reason hl hs, Ev.sendWithdraw_s] at htrans hsent
  refine ⟨?_, hsent⟩
  rw [htrans, State.transOf_setTrans, if_pos rfl]

/-- A failure without a standing Offer changes no transaction. -/
theorem Ev.Failed.quiet {a b : Ev} {c : Nat} {x : Ctx} {reason : Reason} {named : Nat}
    (h : Ev.Failed a b (a.withdrawOffer x.offerRef (a.s.rrow x.route).dest reason) c x reason named false)
    (hw : a.withdrawOffer x.offerRef (a.s.rrow x.route).dest reason = a) :
    b.s.sent = a.s.sent ∧ b.offers = a.offers ++ [a.s.refusedOffer x reason named] ∧ b.s.transOf = a.s.transOf := by
  rw [hw] at h
  exact ⟨(h.silent rfl).1, (h.silent rfl).2, h.trans⟩

end Sys2Proof.Machine

/-! PROOFS. The failures of a context that end with it: Cancel Route on a SETTING route, the expiry of a context timer, the
crossing rule at the JUNIOR side, a Withdraw for a SETTING route, and the deadlines of an element. -/

namespace Sys2Proof.Machine

theorem State.ctxOf_spec {s : State} {r c : Nat} (h : s.ctxOf r = some c) : ∃ x, s.ctx c = some x ∧ x.route = r := by
  have hp := List.find?_some h
  split at hp
  · next x hx => exact ⟨x, hx, by simpa using hp⟩
  · cases hp

/-- The state in which the owner of a request acts that is answered first. -/
def State.answering (s : State) (q : Req) (tag : Half) (code : ReplyCode) : State :=
  (s.taken .c).replying q tag code .none

@[simp] theorem State.answering_reads (s : State) (q : Req) (tag : Half) (code : ReplyCode) :
    (s.answering q tag code).ctx = s.ctx ∧ (s.answering q tag code).route = s.route ∧
    (s.answering q tag code).elem = s.elem ∧ (s.answering q tag code).transOf = s.transOf ∧
    (s.answering q tag code).rrow = s.rrow ∧ (s.answering q tag code).elemLink = s.elemLink ∧
    (s.answering q tag code).pointByte = s.pointByte ∧ (s.answering q tag code).desig = s.desig ∧
    (s.answering q tag code).routeKeyOf = s.routeKeyOf ∧ (s.answering q tag code).ctxOf = s.ctxOf ∧
    (s.answering q tag code).sent = s.sent ++ [⟨.c, .reply q.cls.code q.code tag code .none⟩] := by
  and_intros <;> rfl

theorem State.answering_handedOn (s : State) (q : Req) (tag : Half) (code : ReplyCode) :
    HandedOn (s.taken .c) (s.answering q tag code) := State.send_handedOn _ _ _

theorem Ev.cancelRoute_of_setting {ev : Ev} {r c : Nat} (tag : Half) (hs : (ev.s.route r).state = .setting)
    (hc : ev.s.ctxOf r = some c) :
    Ev.cancelRoute tag ev r =
      (ev.answer .cancelRoute tag .accepted).failCtx c .cancelled (ev.s.rrow r).start true := by
  have hc' : (ev.answer .cancelRoute tag .accepted).s.ctxOf r = some c := hc
  unfold Ev.cancelRoute
  rw [hs]
  dsimp only
  unfold Ev.abortSetting
  rw [hc']
  rfl

/-- A read of a state that tables alone decide is the same after any operation of the blocks. -/
theorem HandedOn.tables {u t : State} (h : HandedOn u t) :
    t.rrow = u.rrow ∧ t.desig = u.desig ∧ t.routeKeyOf = u.routeKeyOf ∧ t.pointByte = u.pointByte ∧
    t.routeKind = u.routeKind ∧ t.elemLink = u.elemLink ∧ t.kind = u.kind ∧ t.isEntry = u.isEntry := by
  have hs : t.store = u.store := h.fields.2.1
  have hv : t.tablesValid = u.tablesValid := h.fields.2.2.2.1
  have hk : t.kind = u.kind := funext (State.kind_congr hs hv)
  have hw : t.rrow = u.rrow := by funext r; simp only [State.rrow, hs]
  have hrk : t.routeKind = u.routeKind := by
    rw [h.frame]
    rfl
  and_intros
  · exact hw
  · funext r; simp only [State.desig, State.erow, hs]
  · rw [h.frame]; rfl
  · funext r; simp only [State.pointByte, State.erow, hs]
  · exact hrk
  · rw [h.frame]; rfl
  · exact hk
  · funext r; simp only [State.isEntry, hrk]

/-- A request's event is raised on by its end: what stood unlocked, freed and stopped stays so. -/
theorem Ev.settle_stays (ev : Ev) :
    (∀ c, ev.s.ctx c = none → ev.settle.ctx c = none) ∧ (∀ c, ev.s.ctxTimer c = none → ev.settle.ctxTimer c = none) ∧
    ∀ r, (∀ e, (ev.s.elem e).lockOwner ≠ some r) → ∀ e, (ev.settle.elem e).lockOwner ≠ some r := by
  have h := ev.settle_handedOn
  exact ⟨h.ctx, h.ctxTimer, fun r hu e hl => hu e (h.lock e r hl)⟩

/-! ### Timers of contexts -/

theorem takeContextTimerExpiry_of_waiting {c : Nat} {s : State} (h : ∀ t, s.ctxTimer c = some t → t.expired = false) :
    takeContextTimerExpiry c s = s := by
  unfold takeContextTimerExpiry
  split
  · next t ht => rw [if_neg (by simp [h t ht])]
  · rfl

/-- The event of a context's expiry once its timer is stopped (R70). -/
def Ev.ctxTimedOut (s : State) (c : Nat) : Ev := ⟨s, s.begun.setCtxTimer c none, [], []⟩

theorem takeContextTimerExpiry_of_expired {c : Nat} {s : State} {t : Timer} {x : Ctx} (ht : s.ctxTimer c = some t)
    (he : t.expired = true) (hx : s.ctx c = some x) :
    takeContextTimerExpiry c s = ((Ev.ctxTimedOut s c).failCtx c .borderTimeout (s.rrow x.route).dest true).settle := by
  have hx' : (Ev.ctxTimedOut s c).s.ctx c = some x := hx
  have h : (Ev.start s).contextExpiry c = (Ev.ctxTimedOut s c).failCtx c .borderTimeout (s.rrow x.route).dest true := by
    have he : (Ev.start s).contextExpiry c = match (Ev.ctxTimedOut s c).s.ctx c with
      | some x => (Ev.ctxTimedOut s c).failCtx c .borderTimeout ((Ev.ctxTimedOut s c).s.rrow x.route).dest true
      | none => Ev.ctxTimedOut s c := rfl
    rw [he, hx']
    rfl
  unfold takeContextTimerExpiry
  rw [ht, ← h]
  exact if_pos he

/-! ### The crossing rule -/

theorem State.borderElem_spec {s : State} {l : Link} {n e : Nat} (h : s.borderElem l n = some e) :
    s.kind e = some .border ∧ s.elemLink e = some l ∧ (s.erow e).slot = n := by
  have hp := List.find?_some h
  simpa [State.onLink, State.elemLink, and_assoc] using hp

theorem State.ctxAwaiting_dest {s : State} {e c : Nat} {x : Ctx} (h : s.ctxAwaiting e = some c) (hx : s.ctx c = some x) :
    x.reply = true ∧ s.routeKind x.route = some .exit ∧ (s.rrow x.route).dest = e := by
  have hp := List.find?_some h
  simp only [hx, Bool.and_eq_true, beq_iff_eq] at hp
  obtain ⟨⟨hr, hk⟩, hd⟩ := hp
  exact ⟨hr, hk, hd⟩

@[simp] theorem State.taken_refusedOffer (s : State) (p : Port) :
    (s.taken p).refusedOffer = s.refusedOffer ∧ (s.taken p).elemLink = s.elemLink := by
  cases p <;> exact ⟨rfl, rfl⟩

theorem Ev.failAwaiting_of_some {ev : Ev} {e c : Nat} (reason : Reason) (d : Bool) (h : ev.s.ctxAwaiting e = some c) :
    ev.failAwaiting e reason d = ev.failCtx c reason e d := by
  unfold Ev.failAwaiting
  rw [h]

theorem Ev.entryRequest_kept_offers (ev : Ev) (l : Link) (e r : Nat) (tx : BorderTx) :
    ev.offers <+: (ev.entryRequest l e r tx).offers ∧ (ev.entryRequest l e r tx).before = ev.before ∧
    ev.s.sent <+: (ev.entryRequest l e r tx).s.sent ∧ (ev.entryRequest l e r tx).s.transOf = ev.s.transOf ∧
    (ev.entryRequest l e r tx).s.ctx = ev.s.ctx ∧ (ev.entryRequest l e r tx).s.ctxTimer = ev.s.ctxTimer := by
  have hd (x : Reason) : ev.offers <+: (ev.sendDecline l (some e) tx.point tx.reference x).offers ∧
      (ev.sendDecline l (some e) tx.point tx.reference x).before = ev.before ∧
      ev.s.sent <+: (ev.sendDecline l (some e) tx.point tx.reference x).s.sent ∧
      (ev.sendDecline l (some e) tx.point tx.reference x).s.transOf = ev.s.transOf ∧
      (ev.sendDecline l (some e) tx.point tx.reference x).s.ctx = ev.s.ctx ∧
      (ev.sendDecline l (some e) tx.point tx.reference x).s.ctxTimer = ev.s.ctxTimer :=
    ⟨List.prefix_append _ _, rfl, List.prefix_append _ _, rfl, rfl, rfl⟩
  unfold Ev.entryRequest
  dsimp only
  split
  · exact ⟨List.prefix_rfl, rfl, List.prefix_rfl, rfl, rfl, rfl⟩
  · split
    · exact hd _
    · split
      · exact hd _
      · split
        · exact hd _
        · exact ⟨List.prefix_append _ _, rfl, List.prefix_rfl, rfl, rfl, rfl⟩

/-- An Offer that is taken, or declined, touches no transaction and no context. -/
theorem Ev.offerIdle_leaves (ev : Ev) (l : Link) (e : Nat) (tx : BorderTx) :
    ev.offers <+: (ev.offerIdle l e tx).offers ∧ (ev.offerIdle l e tx).before = ev.before ∧
    ev.s.sent <+: (ev.offerIdle l e tx).s.sent ∧ (ev.offerIdle l e tx).s.transOf = ev.s.transOf ∧
    (ev.offerIdle l e tx).s.ctx = ev.s.ctx ∧ (ev.offerIdle l e tx).s.ctxTimer = ev.s.ctxTimer := by
  unfold Ev.offerIdle
  split
  · exact ev.entryRequest_kept_offers l e _ tx
  · exact ⟨List.prefix_append _ _, rfl, List.prefix_append _ _, rfl, rfl, rfl⟩

theorem Ev.offer_of_crossing {ev : Ev} {l : Link} {tx : BorderTx} {e : Nat} (hm : ev.s.mode = .operational)
    (he : ev.s.borderElem l tx.point.toNat = some e) (ht : (ev.s.transOf e).state = .offerSent) :
    ev.offer l tx = ev.crossing l e tx := by
  unfold Ev.offer
  simp [hm, he, ht]

theorem Ev.withdrawRequest_of_setting {ev : Ev} {l : Link} {e r c : Nat} {ref : Byte}
    (hu : ev.s.entryUnder l e ref (fun x => x == .queued || x == .setting) = some r)
    (hs : (ev.s.route r).state = .setting) (hc : ev.s.ctxOf r = some c) :
    ev.withdrawRequest l e ref true = ev.failCtx c .cancelled e false := by
  have hu' : ev.s.entryUnder l e ref (fun x => x == .queued || (true && x == .setting)) = some r := hu
  unfold Ev.withdrawRequest
  rw [hu']
  dsimp only
  rw [hs, if_neg (by simp), hc]

/-! ### The deadlines of an element -/

theorem takeSupervisionLoss_of_other {e : Nat} {s : State} (h : s.passes (s.elem e).deadline = false) :
    takeSupervisionLoss e s = s := if_neg (by simp [h])

theorem takeThrowTimeout_of_other {e : Nat} {s : State} (h : s.passes (s.elem e).watch = false) :
    takeThrowTimeout e s = s := if_neg (by simp [h])

/-- The event of a supervision deadline that passes (R27). -/
def Ev.supervisionLost (s : State) (e : Nat) : Ev :=
  ((Ev.start s).on (fun s => s.modElem e (fun r => { r with deadline := none, reported := .unknown }))).elementFault
    .elementFault e FaultCause.supervisionLoss.code

theorem takeSupervisionLoss_of_due {e : Nat} {s : State} (h : s.passes (s.elem e).deadline = true) :
    takeSupervisionLoss e s = (Ev.supervisionLost s e).settle := if_pos h

theorem getLsbD_setLatch_self (ls : BitVec 8) (l : Latch) : (setLatch ls l).getLsbD l.bit = true := by
  unfold setLatch
  rw [BitVec.getLsbD_or]
  cases l <;> simp [Latch.bit]

/-- One element's record is written and ELEMENT_FAULT latched: what an event on that leaves (R17, R27). -/
theorem elementFault_leaves {s t : State} {e : Nat} {f : Elem → Elem}
    (h : HandedOn ((s.begun.modElem e f).latch .elementFault) t) :
    (t.elem e).bare = (f (s.elem e)).bare ∧ t.latches.getLsbD 0 = true ∧
    (∀ k, k ≠ e → (t.elem k).bare = (s.elem k).bare) ∧ s.sent <+: t.sent ∧ t = s.begun.withRoutesOf t := by
  have helem (k : Nat) : ((s.begun.modElem e f).latch .elementFault).elem k = if k = e then f (s.elem e) else s.elem k :=
    State.elem_modElem s.begun e k f
  refine ⟨?_, ?_, fun k hk => ?_, h.sent, ?_⟩
  · rw [h.bare, helem, if_pos rfl]
  · exact h.latches 0 (getLsbD_setLatch_self _ .elementFault)
  · rw [h.bare, helem, if_neg hk]
  · have := h.frame
    exact this

/-- A failure leaves every other context as it stands. -/
theorem Ev.failAwaitingPoint_ctx (ev : Ev) (e : Nat) {c k : Nat} (hk : k ≠ c) :
    (ev.failAwaitingPoint e c).s.ctx k = ev.s.ctx k := by
  unfold Ev.failAwaitingPoint
  split
  · cases hx : ev.s.ctx c with
    | none => rw [Ev.failCtx_of_free _ _ _ _ hx]
    | some x => exact ((Ev.failCtx_failed ev .pointFailed e true hx).ctx k).trans (if_neg hk)
  · rfl

theorem Ev.failAwaitingPoint_self (ev : Ev) (e c : Nat) (h : ev.s.ctxAwaits e c = true) :
    (ev.failAwaitingPoint e c).s.ctx c = none ∧ (ev.failAwaitingPoint e c).s.ctxTimer c = none := by
  unfold Ev.failAwaitingPoint
  rw [if_pos h]
  cases hx : ev.s.ctx c with
  | none => simp [State.ctxAwaits, hx] at h
  | some x =>
    have failed := Ev.failCtx_failed ev .pointFailed e true hx
    exact ⟨(failed.ctx c).trans (if_pos rfl), (failed.ctxTimer c).trans (if_pos rfl)⟩

/-- Each context that awaits the point is FREE at the end, with its timer stopped (R17). -/
theorem Ev.foldl_failAwaitingPoint (e : Nat) (cs : List Nat) (ev : Ev) {c : Nat} (hc : c ∈ cs)
    (h : ev.s.ctxAwaits e c = true) :
    (cs.foldl (Ev.failAwaitingPoint e) ev).s.ctx c = none ∧
    (cs.foldl (Ev.failAwaitingPoint e) ev).s.ctxTimer c = none := by
  induction cs generalizing ev with
  | nil => cases hc
  | cons k cs ih =>
    rw [List.foldl_cons]
    by_cases hk : c = k
    · subst hk
      have hrest := (State.Tame.foldl Ev.s _ (Ev.failAwaitingPoint_tame e) cs (ev.failAwaitingPoint e c)).handed
      obtain ⟨h1, h2⟩ := ev.failAwaitingPoint_self e c h
      exact ⟨hrest.ctx c h1, hrest.ctxTimer c h2⟩
    · refine ih _ (List.mem_of_ne_of_mem hk hc) ?_
      unfold State.ctxAwaits at h ⊢
      rwa [ev.failAwaitingPoint_ctx e hk]

theorem takeThrowTimeout_of_due {e : Nat} {s : State} (h : s.passes (s.elem e).watch = true) : takeThrowTimeout e s =
    (contextNumbers.foldl (Ev.failAwaitingPoint e) (Ev.throwFailed s e)).settle := if_pos h

end Sys2Proof.Machine

section

open Sys2Proof Sys2Proof.Machine

theorem withdrawEndsSetting : Claims.WithdrawEndsSetting := by
  intro l p s e r c x hf hu he ht hentry hs hc hx ho
  obtain ⟨y, hy, rfl⟩ := State.ctxOf_spec hc
  obtain rfl : x = y := Option.some.inj (hx.symm.trans hy)
  have hx' : (Ev.heard s l).s.ctx c = some x := by simpa using hx
  have failed := Ev.failCtx_failed (Ev.heard s l) .cancelled e false hx'
  have hev : (Ev.heard s l).withdraw l (borderTxOf .withdraw p) e = (Ev.heard s l).failCtx c .cancelled e false := by
    rw [Ev.withdraw_of_idle (by simpa using ht)]
    refine Ev.withdrawRequest_of_setting (by simpa using hentry) (by simpa using hs) ?_
    cases l <;> exact hc
  obtain ⟨hsent, hoffers, -⟩ := failed.quiet (by rw [ho]; rfl)
  refine ⟨_, (exec_withdraw l p s hf hu he).trans (congrArg (fun ev => Host.Outcome.next ev.settle) hev), failed.before,
    (failed.route x.route).trans (if_pos rfl), (failed.ctx c).trans (if_pos rfl), (failed.ctxTimer c).trans (if_pos rfl),
    failed.unlocked, ?_, ?_, failed.handed.frame⟩
  · simpa using hsent
  · rw [hoffers, Ev.heard_fields .. |>.1, (s.taken_refusedOffer _).1]
    rfl

/-- Settles O16: the failure of the context that holds the route. -/
theorem cancelSettingRoute : Obligations.CancelSettingRoute := by
  intro tag p s r c ha hp hs hc
  obtain ⟨x, hx, rfl⟩ := State.ctxOf_spec hc
  have hev : Ev.cancelRoute tag (Ev.asked s) x.route =
      (⟨s, s.answering .cancelRoute tag .accepted, s.linkOffers .c, []⟩ : Ev).failCtx c .cancelled
        (s.rrow x.route).start true := Ev.cancelRoute_of_setting tag hs hc
  have failed := Ev.failCtx_failed ⟨s, s.answering .cancelRoute tag .accepted, s.linkOffers .c, []⟩ .cancelled
    (s.rrow x.route).start true hx
  have hfree : (Ev.failCtx _ c _ _ _).s.ctx c = none := (failed.ctx c).trans (if_pos rfl)
  have hstop : (Ev.failCtx _ c _ _ _).s.ctxTimer c = none := (failed.ctxTimer c).trans (if_pos rfl)
  have hhanded := (s.answering_handedOn .cancelRoute tag .accepted).trans failed.handed
  refine ⟨_, (exec_cancelRoute_of_found tag ha hp).trans (congrArg (fun ev => Host.Outcome.next ev.settle) hev),
    failed.before, (failed.route x.route).trans (if_pos rfl), hfree, hstop, failed.unlocked, failed.claims, ?_, failed.refused, ?_, ?_,
    hhanded.bare, hhanded.frame, (Ev.settle_stays _).1 c hfree, (Ev.settle_stays _).2.1 c hstop,
    (Ev.settle_stays _).2.2 _ failed.unlocked⟩
  · intro y ref l hy ho hl ht
    obtain rfl : x = y := Option.some.inj (hx.symm.trans hy)
    obtain ⟨htrans, hsent⟩ := failed.withdrawn ho hl ht
    refine ⟨htrans, ?_⟩
    have hs : (s.answering .cancelRoute tag .accepted).sent = s.sent ++ [⟨.c, .reply 0x01 0x02 tag .accepted .none⟩] := rfl
    rw [hs, List.append_assoc] at hsent
    exact hsent
  · have hsent := (Ev.withdrawOffer_tame ⟨s, s.answering .cancelRoute tag .accepted, s.linkOffers .c, []⟩ x.offerRef
      (s.rrow x.route).dest .cancelled).handed.sent.trans failed.sent
    exact hsent
  · intro q hq
    exact (failed.route q).trans (if_neg hq)

/-- Settles O50: the failure of the context whose timer has run out. -/
theorem contextTimerExpiryFailsContext : Obligations.ContextTimerExpiryFailsContext := by
  refine fun c s => ⟨fun h => congrArg Host.Outcome.next (takeContextTimerExpiry_of_waiting h), fun t x ht he hx => ?_⟩
  have failed := Ev.failCtx_failed (Ev.ctxTimedOut s c) .borderTimeout (s.rrow x.route).dest true
    (show (Ev.ctxTimedOut s c).s.ctx c = some x from hx)
  have hhanded := (State.stopCtxTimer_handedOn s.begun c).trans failed.handed
  exact ⟨_, congrArg Host.Outcome.next (takeContextTimerExpiry_of_expired ht he hx), failed.before,
    (failed.ctx c).trans (if_pos rfl), (failed.ctxTimer c).trans (if_pos rfl),
    (failed.route x.route).trans (if_pos rfl), failed.unlocked, failed.claims,
    fun _ _ ho hl hs => failed.withdrawn ho hl hs, failed.refused, fun k hk => (failed.route k).trans (if_neg hk),
    hhanded.frame⟩

/-- Settles O39: the JUNIOR side's own context fails, and then the Offer received is taken or declined. -/
theorem crossingJuniorGivesWay : Obligations.CrossingJuniorGivesWay := by
  intro l p s e c x ref hf hu hm he ht hj hc hx ho
  obtain ⟨-, hk, hd⟩ := State.ctxAwaiting_dest hc hx
  obtain ⟨-, hl, -⟩ := State.borderElem_spec he
  have hcross : (Ev.heard s l).offer l (borderTxOf .offer p) =
      ((Ev.heard s l).part .crossing 0 (fun ev => ev.failAwaiting e .borderCrossing true)).part .crossing 1
        (fun ev => ev.offerIdle l e (borderTxOf .offer p)) := by
    rw [Ev.offer_of_crossing (e := e) (by simpa using hm) (by simpa using he) (by simpa using ht), Ev.crossing_eq]
    exact if_neg (by simpa using hj)
  have hx' : (Ev.heard s l).s.ctx c = some x := by simpa using hx
  have hc' : (Ev.heard s l).s.ctxAwaiting e = some c := by simpa using hc
  have failed := Ev.failCtx_failed (Ev.heard s l) .borderCrossing e true hx'
  have hfail : (Ev.heard s l).failAwaiting e .borderCrossing true = (Ev.heard s l).failCtx c .borderCrossing e true :=
    Ev.failAwaiting_of_some _ _ hc'
  obtain ⟨htrans, hsent⟩ := failed.withdrawn ho (l := l) (by simpa [hd] using hl) (.inl (by simpa [hd] using ht))
  simp only [Ev.heard_fields, State.taken_reads, State.taken_others, hd] at htrans hsent
  have hs0 : ((Ev.heard s l).part .crossing 0 (fun ev => ev.failAwaiting e .borderCrossing true)).s =
      ((Ev.heard s l).failCtx c .borderCrossing e true).s := by
    have h := congrArg Ev.s hfail
    exact h
  have hb0 : ((Ev.heard s l).part .crossing 0 (fun ev => ev.failAwaiting e .borderCrossing true)).before = s := by
    have h := congrArg Ev.before hfail
    exact h.trans failed.before
  obtain ⟨-, hbefore, hsent', htrans', hctx', htimer'⟩ := Ev.offerIdle_leaves
    { (Ev.heard s l).part .crossing 0 (fun ev => ev.failAwaiting e .borderCrossing true) with offers := [] } l e
    (borderTxOf .offer p)
  rw [hs0] at hsent' htrans' hctx' htimer'
  have hraised := failed.refused
  rw [← hfail] at hraised
  refine ⟨_, exec_offer l p s hf hu, ?_⟩
  rw [hcross]
  refine ⟨hbefore.trans hb0, ?_, ?_, ?_, ?_, ?_⟩
  · exact congrArg TransRec.state ((congrFun htrans' e).trans htrans)
  · exact (congrFun hctx' c).trans ((failed.ctx c).trans (if_pos rfl))
  · exact (congrFun htimer' c).trans ((failed.ctxTimer c).trans (if_pos rfl))
  · exact hsent.trans hsent'
  · refine Ev.raised_mono (Ev.offers_kept_part _ _ _ _) ?_
    have := Ev.raised_part (Ev.heard s l) .crossing 0 (fun ev => ev.failAwaiting e .borderCrossing true) hraised
    rw [Ev.heard_fields .. |>.1, (s.taken_refusedOffer _).1] at this
    exact this

theorem supervisionLossMakesUnknown : Claims.SupervisionLossMakesUnknown := by
  refine fun e s => ⟨fun h => congrArg Host.Outcome.next (takeSupervisionLoss_of_other h), fun h => ?_⟩
  obtain ⟨hbare, hlatch, hothers, hsent, hframe⟩ := elementFault_leaves (Ev.supervisionLost s e).settle_handedOn
  exact ⟨_, congrArg Host.Outcome.next (takeSupervisionLoss_of_due h), hbare, hlatch, hothers, hsent, hframe⟩

/-- Settles O33: each deadline that passes writes one record, and the contexts that await the point fail in turn. -/
theorem elementDeadlines : Obligations.ElementDeadlines := by
  refine ⟨supervisionLossMakesUnknown, fun e s => ⟨fun h => congrArg Host.Outcome.next (takeThrowTimeout_of_other h),
    fun h => ?_⟩⟩
  have hfold := (State.Tame.foldl Ev.s _ (Ev.failAwaitingPoint_tame e) contextNumbers (Ev.throwFailed s e)).handed
  have hsettle := Ev.settle_handedOn (contextNumbers.foldl (Ev.failAwaitingPoint e) (Ev.throwFailed s e))
  obtain ⟨hbare, hlatch, hothers, hsent, hframe⟩ := elementFault_leaves (hfold.trans hsettle)
  refine ⟨_, congrArg Host.Outcome.next (takeThrowTimeout_of_due h), hbare, hlatch, fun c hc ha => ?_, hothers, hsent,
    hframe⟩
  obtain ⟨h1, h2⟩ := Ev.foldl_failAwaitingPoint e contextNumbers (Ev.throwFailed s e) (mem_contextNumbers.2 hc) ha
  exact ⟨hsettle.ctx c h1, hsettle.ctxTimer c h2⟩

end

/-! PROOF SUPPORT. Full release, once for all its causes (R133, R134): the border side, the locks, the route's record and
the release timer. -/

namespace Sys2Proof.Machine

/-! ### The border side -/

theorem Ev.borderRelease_of_other {ev : Ev} {r : Nat} (b : Bool)
    (h : ev.s.routeKind r ≠ some .exit ∨ (ev.s.transOf (ev.s.rrow r).dest).state ≠ .heldOut) :
    ev.borderRelease r b = ev := by
  unfold Ev.borderRelease
  dsimp only
  split
  · next hk =>
    split
    · next hs _ => exact absurd hs (h.resolve_left (fun hn => hn hk))
    · rfl
  · rfl

theorem Ev.borderRelease_of_held {ev : Ev} {r : Nat} {l : Link} {ref : Byte} (b : Bool)
    (hk : ev.s.routeKind r = some .exit) (hl : ev.s.elemLink (ev.s.rrow r).dest = some l)
    (hs : (ev.s.transOf (ev.s.rrow r).dest).state = .heldOut)
    (hr : (ev.s.transOf (ev.s.rrow r).dest).reference = some ref) :
    ev.borderRelease r b = if b then ev.sendHandback l (ev.s.rrow r).dest ref
      else ev.sendWithdraw l (ev.s.rrow r).dest ref .cancelled := by
  unfold Ev.borderRelease
  simp only [hk, hl, hs, hr, if_true]

/-- The end of a transaction that the part holds, by Handback or Withdraw (R134, R148, R150). -/
theorem Ev.borderRelease_leaves (ev : Ev) (r : Nat) (b : Bool) :
    (ev.borderRelease r b).before = ev.before ∧ (ev.borderRelease r b).reached = ev.reached ∧
    ev.offers <+: (ev.borderRelease r b).offers ∧
    (ev.borderRelease r b).s = { ev.s with
      trans := (ev.borderRelease r b).s.trans, sent := (ev.borderRelease r b).s.sent } ∧
    ∀ e, ev.s.transOf e = {} → (ev.borderRelease r b).s.transOf e = {} := by
  unfold Ev.borderRelease
  dsimp only
  split
  · split
    · next l ref hl hs hr =>
      have hkeep (e : Nat) (he : ev.s.transOf e = {}) : (ev.s.setTrans (ev.s.rrow r).dest {}).transOf e = {} := by
        rw [State.transOf_setTrans]
        split
        · rfl
        · exact he
      split
      · exact ⟨rfl, rfl, List.prefix_append _ _, rfl, hkeep⟩
      · exact ⟨rfl, rfl, List.prefix_append _ _, rfl, hkeep⟩
    · exact ⟨rfl, rfl, List.prefix_rfl, rfl, fun _ h => h⟩
  · exact ⟨rfl, rfl, List.prefix_rfl, rfl, fun _ h => h⟩

/-- The border side of a release, said of the event of the release itself (R134). -/
theorem Ev.borderRelease_ends (ev : Ev) (r : Nat) :
    Claims.borderSideEnds ev.s r ev.s.sent (ev.borderRelease r ((ev.s.route r).groups.any GroupState.entered)) := by
  refine ⟨fun l ref hk hl hs hr => ?_, fun h => ?_⟩
  · rw [Ev.borderRelease_of_held _ hk hl hs hr]
    have hother (k : Nat) (hk : k ≠ (ev.s.rrow r).dest) :
        (ev.s.setTrans (ev.s.rrow r).dest {}).transOf k = ev.s.transOf k := by
      rw [State.transOf_setTrans, if_neg hk]
    have hself : (ev.s.setTrans (ev.s.rrow r).dest {}).transOf (ev.s.rrow r).dest = {} := by
      rw [State.transOf_setTrans, if_pos rfl]
    cases (ev.s.route r).groups.any GroupState.entered with
    | true =>
      refine ⟨hself, hother, rfl, ?_⟩
      have h := Ev.raised_changeTrans (ev.sendBorder l (plainTx .handback (ev.s.pointByte (ev.s.rrow r).dest) ref 0)) l
        (ev.s.rrow r).dest {} ref (.sent .handback) none
      have ht : ((ev.sendBorder l (plainTx .handback (ev.s.pointByte (ev.s.rrow r).dest) ref 0)).s.transOf
          (ev.s.rrow r).dest).state = .heldOut := hs
      rw [ht] at h
      exact h
    | false =>
      refine ⟨hself, hother, rfl, ?_⟩
      have h := Ev.raised_changeTrans (ev.sendBorder l (plainTx .withdraw (ev.s.pointByte (ev.s.rrow r).dest) ref 0x0A)) l
        (ev.s.rrow r).dest {} ref (.sent .withdraw) (some 0x0A)
      have ht : ((ev.sendBorder l (plainTx .withdraw (ev.s.pointByte (ev.s.rrow r).dest) ref 0x0A)).s.transOf
          (ev.s.rrow r).dest).state = .heldOut := hs
      rw [ht] at h
      exact h
  · rw [Ev.borderRelease_of_other _ h]
    exact ⟨rfl, rfl⟩

/-- What the border side of a release reads. -/
theorem borderSideEnds_congr {s t : State} {r : Nat} {sent : List Sent} {ev : Ev} (h : Claims.borderSideEnds t r sent ev)
    (htables : t.rrow = s.rrow ∧ t.desig = s.desig ∧ t.pointByte = s.pointByte ∧ t.routeKind = s.routeKind ∧
      t.elemLink = s.elemLink)
    (hgroups : (t.route r).groups = (s.route r).groups) (htrans : t.trans = s.trans) :
    Claims.borderSideEnds s r sent ev := by
  obtain ⟨h1, h2, h3, h4, h5⟩ := htables
  have ht : t.transOf = s.transOf := by
    funext e
    exact congrArg (fun x => tblGet ({} : TransRec) x e) htrans
  unfold Claims.borderSideEnds at h ⊢
  rw [h1, h2, h3, h4, h5, hgroups, ht, htrans] at h
  exact h

/-! ### Release timers -/

/-- A change of a route's record that leaves all but its release timer's fields (R65). -/
def RouteRec.sameButTimer (v w : RouteRec) : Prop := v.noTimer = w.noTimer

theorem RouteRec.sameButTimer_fields {v w : RouteRec} (h : v.sameButTimer w) :
    v.state = w.state ∧ v.origin = w.origin ∧ v.context = w.context ∧ v.clearWanted = w.clearWanted ∧
    v.wasCleared = w.wasCleared ∧ v.groups = w.groups ∧ v.flank = w.flank ∧ v.aspect = w.aspect := by
  unfold RouteRec.sameButTimer RouteRec.noTimer at h
  injection h
  and_intros <;> assumption

/-- What the release timer pool touches: the timers, the wait list, and the timer fields of routes. -/
structure State.Timed (u t : State) : Prop where
  frame : t = { u with routes := t.routes, timers := t.timers, waitList := t.waitList }
  route : ∀ k, (t.route k).sameButTimer (u.route k)

theorem State.Timed.refl (u : State) : u.Timed u := ⟨rfl, fun _ => rfl⟩

theorem State.Timed.trans {u v t : State} (h : u.Timed v) (k : v.Timed t) : u.Timed t where
  frame := by
    have h1 := h.frame
    have h2 := k.frame
    rw [h1] at h2
    exact h2
  route r := (k.route r).trans (h.route r)

theorem State.modRoute_timed (s : State) (r : Nat) (f : RouteRec → RouteRec)
    (hf : ∀ w, (f w).sameButTimer w := by exact fun _ => rfl) : s.Timed (s.modRoute r f) where
  frame := rfl
  route k := by
    rw [State.route_modRoute]
    split
    · next h => rw [h]; exact hf _
    · rfl

theorem State.setTimer_timed (s : State) (t : Nat) (x : Option HeldTimer) : s.Timed (s.setTimer t x) :=
  ⟨rfl, fun _ => rfl⟩

theorem State.waitList_timed (s : State) (w : List Waiting) : s.Timed { s with waitList := w } := ⟨rfl, fun _ => rfl⟩

theorem State.grantTimer_timed (s : State) (t r : Nat) (p : Purpose) : s.Timed (s.grantTimer t r p) := by
  unfold State.grantTimer
  exact (s.setTimer_timed t _).trans (State.modRoute_timed _ r _)

theorem State.freeTimer_timed (s : State) (t : Nat) : s.Timed (s.freeTimer t) := by
  unfold State.freeTimer
  split
  · exact s.setTimer_timed t none
  · exact ((s.setTimer_timed t none).trans (State.waitList_timed _ _)).trans (State.grantTimer_timed _ t _ _)

theorem State.freeRequest_timed (s : State) (r : Nat) : s.Timed (s.freeRequest r) := by
  unfold State.freeRequest
  split
  · exact (s.modRoute_timed r RouteRec.noTimer).trans (State.freeTimer_timed _ _)
  · split
    · exact (s.modRoute_timed r RouteRec.noTimer).trans (State.waitList_timed _ _)
    · exact .refl s

theorem State.timerRequest_timed (s : State) (r : Nat) (p : Purpose) : s.Timed (s.timerRequest r p).1 := by
  unfold State.timerRequest
  split
  · exact s.freeRequest_timed r
  · split
    · exact s.grantTimer_timed _ r p
    · split
      · exact (s.modRoute_timed r _).trans (State.waitList_timed _ _)
      · split
        · exact s.grantTimer_timed _ r p
        · exact (s.modRoute_timed r _).trans (State.waitList_timed _ _)

/-- The answer IMMEDIATE comes where the required time is 0, and only there; otherwise the route waits for the purpose it
asked for (R63, R66). -/
theorem State.timerRequest_answer (s : State) (r : Nat) (p : Purpose) :
    (s.requiredMs r p = 0 → s.timerRequest r p = (s.freeRequest r, .immediate)) ∧
    (s.requiredMs r p ≠ 0 → (s.timerRequest r p).2 ≠ .immediate ∧ ((s.timerRequest r p).1.route r).purpose = p) := by
  refine ⟨fun h => if_pos h, fun h => ?_⟩
  unfold State.timerRequest
  rw [if_neg h]
  have hgrant (t : Nat) : ((s.grantTimer t r p).route r).purpose = p := by
    unfold State.grantTimer
    dsimp only
    rw [State.route_modRoute, if_pos rfl]
  split
  · exact ⟨by simp, hgrant _⟩
  · split
    · refine ⟨by simp, ?_⟩
      change ((s.modRoute r (fun w => { w with purpose := p })).route r).purpose = p
      rw [State.route_modRoute, if_pos rfl]
    · split
      · exact ⟨by simp, hgrant _⟩
      · refine ⟨by simp, ?_⟩
        change ((s.modRoute r (fun w => { w with purpose := p, deferred := true })).route r).purpose = p
        rw [State.route_modRoute, if_pos rfl]

/-- The waiting routes but one. -/
def State.waitingOthers (s : State) (r : Nat) : List Waiting := s.waitList.filter (fun w => w.route != r)

/-- A route without a release timer leaves the wait list, and no other route's record is touched. -/
theorem State.freeRequest_of_untimed {s : State} {r : Nat} (h : (s.route r).timer = none) :
    (s.freeRequest r).timers = s.timers ∧ (s.freeRequest r).waitList = s.waitingOthers r ∧
    ∀ k, k ≠ r → (s.freeRequest r).route k = s.route k := by
  unfold State.freeRequest State.waitingOthers
  rw [h]
  dsimp only
  split
  · refine ⟨rfl, rfl, fun k hk => ?_⟩
    exact (State.route_modRoute s r k RouteRec.noTimer).trans (if_neg hk)
  · next hany =>
    refine ⟨rfl, (List.filter_eq_self.2 (fun w hw => ?_)).symm, fun _ _ => rfl⟩
    by_contra hne
    exact hany (List.any_eq_true.2 ⟨w, hw, by simpa using hne⟩)

/-! ### Full release -/

/-- The locks, the claims and the timer of a route are given back (R133 steps 1 to 3). -/
def State.givingBack (s : State) (r : Nat) : State := ((s.unlockAll r).dropClaims r (fun _ => true)).freeRequest r

/-- An element's record without who holds it. -/
def Elem.unheld (x : Elem) : Elem := { x with lockOwner := none, claims := 0, claimed := none }

theorem Elem.unheld_fields {x y : Elem} (h : x.unheld = y.unheld) :
    x.aspect = y.aspect ∧ x.proven = y.proven ∧ x.pointCmd = y.pointCmd ∧ x.bare = y.bare := by
  unfold Elem.unheld at h
  injection h
  and_intros
  · assumption
  · assumption
  · assumption
  · unfold Elem.bare
    congr

theorem State.unheld_foldl_unlock (es : List Nat) (s : State) (k : Nat) :
    ((es.foldl State.unlock s).elem k).unheld = (s.elem k).unheld := by
  rw [State.elem_foldl_unlock]
  split <;> rfl

theorem State.unheld_foldl_dropClaim (fs : List FlankRec) (s : State) (k : Nat) :
    ((fs.foldl State.dropClaim s).elem k).unheld = (s.elem k).unheld := by
  induction fs generalizing s with
  | nil => rfl
  | cons f fs ih =>
    rw [List.foldl_cons, ih, State.dropClaim, State.elem_modElem]
    split
    · next h => rw [h]; rfl
    · rfl

theorem State.unheld_dropClaims (s : State) (r : Nat) (p : FlankRec → Bool) (k : Nat) :
    ((s.dropClaims r p).elem k).unheld = (s.elem k).unheld := by
  unfold State.dropClaims
  exact State.unheld_foldl_dropClaim _ s k

theorem State.dropClaims_frames (s : State) (r : Nat) (p : FlankRec → Bool) : s.dropClaims r p =
    { s with elems := (s.dropClaims r p).elems, routes := (s.dropClaims r p).routes } := by
  unfold State.dropClaims
  dsimp only
  rw [State.foldl_dropClaim_frame]
  rfl

theorem State.frame_of_elems {s u v : State} (h : u = { s with elems := u.elems })
    (k : v = { u with elems := v.elems, routes := v.routes }) : v = { s with elems := v.elems, routes := v.routes } := by
  rw [h] at k
  exact k

theorem State.frame_of_timed {s v w : State} (h : v = { s with elems := v.elems, routes := v.routes })
    (k : w = { v with routes := w.routes, timers := w.timers, waitList := w.waitList }) :
    w = { s with elems := w.elems, routes := w.routes, timers := w.timers, waitList := w.waitList } := by
  have he : w.elems = v.elems := by rw [k]
  rw [he]
  rw [h] at k
  exact k

/-- What a route gives back with its locks, claims and timer. -/
theorem State.givingBack_leaves (s : State) (r : Nat) :
    s.givingBack r = { s with elems := (s.givingBack r).elems, routes := (s.givingBack r).routes
                              timers := (s.givingBack r).timers, waitList := (s.givingBack r).waitList } ∧
    (∀ k, ((s.givingBack r).elem k).unheld = (s.elem k).unheld) ∧
    (∀ k, ((s.givingBack r).elem k).lockOwner ≠ some r) ∧
    (∀ k, k ≠ r → ((s.givingBack r).route k).sameButTimer (s.route k)) ∧
    ((s.route r).timer = none → (s.givingBack r).timers = s.timers ∧ (s.givingBack r).waitList = s.waitingOthers r ∧
      ∀ k, k ≠ r → (s.givingBack r).route k = s.route k) := by
  have hu : s.unlockAll r = { s with elems := (s.unlockAll r).elems } := State.foldl_unlock_frame _ s
  have hd := (s.unlockAll r).dropClaims_frames r (fun _ => true)
  have ht := ((s.unlockAll r).dropClaims r (fun _ => true)).freeRequest_timed r
  have hroute (k : Nat) : k ≠ r → ((s.unlockAll r).dropClaims r (fun _ => true)).route k = s.route k := fun hk => by
    rw [((s.unlockAll r).dropClaims_others r _).2.2, if_neg hk, (s.unlockAll_others r).2.2]
  have hself : (((s.unlockAll r).dropClaims r (fun _ => true)).route r).timer = (s.route r).timer := by
    rw [((s.unlockAll r).dropClaims_others r _).2.2, if_pos rfl, (s.unlockAll_others r).2.2]
  have hlocks : HandedOn (s.unlockAll r) (s.givingBack r) :=
    (State.dropClaims_handedOn _ r _).trans (State.freeRequest_handedOn _ r)
  have hunheld (k : Nat) : (((s.unlockAll r).dropClaims r (fun _ => true)).elem k).unheld = (s.elem k).unheld :=
    (State.unheld_dropClaims _ r _ k).trans (State.unheld_foldl_unlock _ s k)
  have huntimed := State.freeRequest_of_untimed (s := (s.unlockAll r).dropClaims r (fun _ => true)) (r := r)
  have hframe : (s.unlockAll r).dropClaims r (fun _ => true) = { s with
      elems := ((s.unlockAll r).dropClaims r (fun _ => true)).elems
      routes := ((s.unlockAll r).dropClaims r (fun _ => true)).routes } := State.frame_of_elems hu hd
  unfold State.givingBack at hlocks ⊢
  generalize (s.unlockAll r).dropClaims r (fun _ => true) = v at *
  have hf := ht.frame
  refine ⟨?_, fun k => ?_, fun k hk => s.lockOwner_unlockAll r k (hlocks.lock k r hk), fun k hk => ?_, fun hn => ?_⟩
  · exact State.frame_of_timed hframe hf
  · rw [hf]
    exact hunheld k
  · rw [← hroute k hk]
    exact ht.route k
  · obtain ⟨h1, h2, h3⟩ := huntimed (hself.trans hn)
    have hv1 : v.timers = s.timers := by rw [hframe]
    have hv2 : v.waitList = s.waitList := by rw [hframe]
    exact ⟨h1.trans hv1, h2.trans (by rw [State.waitingOthers, hv2]; rfl), fun k hk => (h3 k hk).trans (hroute k hk)⟩

/-- What a full release leaves (R133, R134). -/
structure Ev.Released (a b : Ev) (r : Nat) : Prop where
  before : b.before = a.before
  reached : b.reached = a.reached
  route : b.s.route r = {}
  others : ∀ k, k ≠ r → (b.s.route k).sameButTimer (a.s.route k)
  unlocked : ∀ e, (b.s.elem e).lockOwner ≠ some r
  unheld : ∀ e, (b.s.elem e).unheld = (a.s.elem e).unheld
  border : Claims.borderSideEnds a.s r a.s.sent b
  cleared : ∀ e, a.s.transOf e = {} → b.s.transOf e = {}
  contexts : b.s.contexts = a.s.contexts ∧ b.s.ctxTimers = a.s.ctxTimers
  offers : a.offers <+: b.offers
  released : b.raised .route (a.s.routeOffer r { a.s.route r with deferred := false, clamped := false } .released).rep
  untimed : (a.s.route r).timer = none → b.s.timers = a.s.timers ∧ b.s.waitList = a.s.waitingOthers r ∧
    ∀ k, k ≠ r → b.s.route k = a.s.route k
  handed : HandedOn a.s b.s

/-- The reports of a border side in a part of a sequence. -/
theorem borderSideEnds_part {s : State} {r : Nat} {sent : List Sent} {ev b : Ev} (h : Claims.borderSideEnds s r sent ev)
    (ht : b.s.trans = ev.s.trans) (hs : b.s.sent = ev.s.sent)
    (hraised : ∀ src x, ev.raised src x → b.raised src x) : Claims.borderSideEnds s r sent b := by
  obtain ⟨h1, h2⟩ := h
  have htrans : b.s.transOf = ev.s.transOf := by
    funext e
    exact congrArg (fun x => tblGet ({} : TransRec) x e) ht
  refine ⟨fun l ref hk hl hh hr => ?_, fun hn => ?_⟩
  · obtain ⟨ha, hb, hc, hd⟩ := h1 l ref hk hl hh hr
    exact ⟨by rw [htrans]; exact ha, by rw [htrans]; exact hb, by rw [hs]; exact hc, hraised _ _ hd⟩
  · rw [ht, hs]
    exact h2 hn

theorem State.givingBack_groups (s : State) (r : Nat) :
    ((s.givingBack r).route r).groups = (s.route r).groups := by
  have h1 := (((s.unlockAll r).dropClaims r (fun _ => true)).freeRequest_timed r).route r
  have h2 : (((s.unlockAll r).dropClaims r (fun _ => true)).route r).groups = (s.route r).groups := by
    rw [((s.unlockAll r).dropClaims_others r _).2.2, if_pos rfl, (s.unlockAll_others r).2.2]
  exact (RouteRec.sameButTimer_fields h1).2.2.2.2.2.1.trans h2

/-- The last steps of a full release (R133 steps 4 to 6): the border side, and the route becomes FREE. -/
def Ev.endRoute (a : Ev) (r : Nat) (w : RouteRec) : Ev :=
  a.inOrder (.release r) 1
    [fun b => b.borderRelease r (w.groups.any GroupState.entered),
     fun b => (b.on (fun s => s.setRoute r {})).routeReport r { w with deferred := false, clamped := false } .released]

/-- The border side as the first of these steps. -/
def Ev.endBorder (a : Ev) (r : Nat) (w : RouteRec) : Ev :=
  Ev.part a (.release r) 1 (fun b => b.borderRelease r (w.groups.any GroupState.entered))

theorem Ev.endRoute_eq (a : Ev) (r : Nat) (w : RouteRec) : a.endRoute r w = (a.endBorder r w).part (.release r) 2
    (fun b => (b.on (fun s => s.setRoute r {})).routeReport r { w with deferred := false, clamped := false } .released) :=
  rfl

theorem Ev.endBorder_leaves (a : Ev) (r : Nat) (w : RouteRec) (hw : w.groups = (a.s.route r).groups) :
    (a.endBorder r w).before = a.before ∧ (a.endBorder r w).reached = a.reached ∧
    a.offers <+: (a.endBorder r w).offers ∧
    (a.endBorder r w).s = { a.s with trans := (a.endBorder r w).s.trans, sent := (a.endBorder r w).s.sent } ∧
    (∀ e, a.s.transOf e = {} → (a.endBorder r w).s.transOf e = {}) ∧
    Claims.borderSideEnds a.s r a.s.sent (a.endBorder r w) := by
  obtain ⟨hbefore, hreached, -, hstate, hcleared⟩ := Ev.borderRelease_leaves { a with offers := [] } r
    (w.groups.any GroupState.entered)
  have hends := Ev.borderRelease_ends { a with offers := [] } r
  rw [hw] at hbefore hreached hstate hcleared
  have hb : a.endBorder r w = a.part (.release r) 1
      (fun b => b.borderRelease r ((a.s.route r).groups.any GroupState.entered)) := by
    unfold Ev.endBorder
    rw [hw]
  rw [hb]
  exact ⟨hbefore, hreached, a.offers_kept_part _ _ _, hstate, hcleared,
    borderSideEnds_part hends rfl rfl (fun _ _ h => a.raised_part _ _ _ h)⟩

theorem State.frame_of_routes {s v w : State} (h : v = { s with trans := v.trans, sent := v.sent })
    (k : w = { v with routes := w.routes }) : w = { s with routes := w.routes, trans := w.trans, sent := w.sent } := by
  have ht : w.trans = v.trans := by rw [k]
  have hs : w.sent = v.sent := by rw [k]
  rw [ht, hs]
  rw [h] at k
  exact k

theorem Ev.raised_routeReport (ev : Ev) (r : Nat) (w : RouteRec) (x : RouteEvent) :
    (ev.routeReport r w x).raised .route (ev.s.routeOffer r w x).rep :=
  ev.raised_raise .route (ev.s.routeOffer r w x).rep rfl

theorem Ev.endRoute_leaves (a : Ev) (r : Nat) (w : RouteRec) (hw : w.groups = (a.s.route r).groups) :
    (a.endRoute r w).before = a.before ∧ (a.endRoute r w).reached = a.reached ∧
    a.offers <+: (a.endRoute r w).offers ∧
    (∀ k, (a.endRoute r w).s.route k = if k = r then {} else a.s.route k) ∧
    (a.endRoute r w).s = { a.s with
      routes := (a.endRoute r w).s.routes, trans := (a.endRoute r w).s.trans, sent := (a.endRoute r w).s.sent } ∧
    (∀ e, a.s.transOf e = {} → (a.endRoute r w).s.transOf e = {}) ∧
    Claims.borderSideEnds a.s r a.s.sent (a.endRoute r w) ∧
    (a.endRoute r w).raised .route (a.s.routeOffer r { w with deferred := false, clamped := false } .released).rep := by
  obtain ⟨hbefore, hreached, hoffers, hstate, hcleared, hends⟩ := a.endBorder_leaves r w hw
  rw [Ev.endRoute_eq]
  generalize a.endBorder r w = v at *
  have hroute : v.s.route = a.s.route := by rw [hstate]; rfl
  have hkey : v.s.routeKeyOf = a.s.routeKeyOf := by rw [hstate]; rfl
  refine ⟨hbefore, hreached, hoffers.trans (v.offers_kept_part _ _ _), fun k => ?_, ?_, hcleared, ?_, ?_⟩
  · rw [← hroute]
    exact State.route_setRoute v.s r k {}
  · exact State.frame_of_routes (w := v.s.setRoute r {}) hstate rfl
  · exact borderSideEnds_part hends rfl rfl (fun _ _ h => Ev.raised_mono (v.offers_kept_part _ _ _) h)
  · have hoffer : (v.s.setRoute r {}).routeOffer r { w with deferred := false, clamped := false } .released =
        a.s.routeOffer r { w with deferred := false, clamped := false } .released := by
      unfold State.routeOffer
      rw [← hkey]
      rfl
    rw [← hoffer]
    exact v.raised_part _ _ _ (Ev.raised_routeReport { v.on (fun s => s.setRoute r {}) with offers := [] } r _ _)

theorem State.transOf_congr {s t : State} (h : t.trans = s.trans) : t.transOf = s.transOf := by
  funext e
  exact congrArg (fun x => tblGet ({} : TransRec) x e) h

/-- What a state shares with the one it comes from by the hand-back of locks, claims and timers. -/
theorem State.shared_of_givenBack {s t : State} (h : t = { s with
      elems := t.elems, routes := t.routes, timers := t.timers, waitList := t.waitList }) :
    (t.rrow = s.rrow ∧ t.desig = s.desig ∧ t.pointByte = s.pointByte ∧ t.routeKind = s.routeKind ∧
      t.elemLink = s.elemLink) ∧ t.trans = s.trans ∧ t.sent = s.sent ∧ t.routeKeyOf = s.routeKeyOf ∧
    t.contexts = s.contexts ∧ t.ctxTimers = s.ctxTimers := by
  rw [h]
  exact ⟨⟨rfl, rfl, rfl, rfl, rfl⟩, rfl, rfl, rfl, rfl, rfl⟩

/-- What the last steps of a full release leave of the state they begin in. -/
theorem State.shared_of_endRoute {s t : State} (h : t = { s with routes := t.routes, trans := t.trans, sent := t.sent }) :
    t.elem = s.elem ∧ t.contexts = s.contexts ∧ t.ctxTimers = s.ctxTimers ∧ t.timers = s.timers ∧
    t.waitList = s.waitList := by
  rw [h]
  exact ⟨rfl, rfl, rfl, rfl, rfl⟩

theorem Ev.fullRelease_released (ev : Ev) (r : Nat) : Ev.Released ev (ev.fullRelease r) r := by
  have hhanded := ev.fullRelease_handedOn r
  have hgroups := ev.s.givingBack_groups r
  obtain ⟨hframe, hunheld, hunlocked, hothers, huntimed⟩ := ev.s.givingBack_leaves r
  have he : ev.fullRelease r = (ev.on (fun s => s.givingBack r)).endRoute r (ev.s.route r) := rfl
  rw [he] at hhanded ⊢
  obtain ⟨hbefore, hreached, hoffers, hroute, hstate, hcleared, hends, hraised⟩ :=
    Ev.endRoute_leaves (ev.on (fun s => s.givingBack r)) r (ev.s.route r) hgroups.symm
  generalize (ev.on (fun s => s.givingBack r)).endRoute r (ev.s.route r) = b at *
  simp only [Ev.on] at hbefore hreached hoffers hroute hstate hcleared hends hraised
  generalize ev.s.givingBack r = t at *
  obtain ⟨htables, htrans, hsent, hkey, hctx, hctxTimers⟩ := State.shared_of_givenBack hframe
  obtain ⟨helem, hbctx, hbtimers, htimers, hwait⟩ := State.shared_of_endRoute hstate
  have hoffer : t.routeOffer r { ev.s.route r with deferred := false, clamped := false } .released =
      ev.s.routeOffer r { ev.s.route r with deferred := false, clamped := false } .released := by
    unfold State.routeOffer
    rw [hkey]
  exact {
    before := hbefore
    reached := hreached
    route := by rw [hroute, if_pos rfl]
    others := fun k hk => by rw [hroute, if_neg hk]; exact hothers k hk
    unlocked := fun e => by rw [helem]; exact hunlocked e
    unheld := fun e => by rw [helem]; exact hunheld e
    border := borderSideEnds_congr (hsent ▸ hends) htables hgroups htrans
    cleared := fun e h => hcleared e (by rw [State.transOf_congr htrans]; exact h)
    contexts := ⟨hbctx.trans hctx, hbtimers.trans hctxTimers⟩
    offers := hoffers
    released := hoffer ▸ hraised
    untimed := fun h => by
      obtain ⟨h1, h2, h3⟩ := huntimed h
      exact ⟨htimers.trans h1, hwait.trans h2, fun k hk => by rw [hroute, if_neg hk]; exact h3 k hk⟩
    handed := hhanded }

end Sys2Proof.Machine

/-! PROOF SUPPORT. Withdraw and Handback (R94, R149, R150). -/

namespace Sys2Proof.Machine

/-- What the command of an aspect leaves (R116, R119, R122, R124, R135). -/
theorem State.writeAspect_leaves (s : State) (r : Nat) (a : Aspect) :
    s.writeAspect r a = { s with elems := (s.writeAspect r a).elems, routes := (s.writeAspect r a).routes } ∧
    (∀ k, (s.writeAspect r a).route k = if k = r then { s.route r with aspect := a } else s.route k) ∧
    (∀ k, k ≠ (s.rrow r).start → (s.writeAspect r a).elem k = s.elem k) ∧
    (if s.isEntry r then ((s.writeAspect r a).elem (s.rrow r).start).proven = (a != .danger)
     else ((s.writeAspect r a).elem (s.rrow r).start).aspect = a) := by
  unfold State.writeAspect
  dsimp only
  split
  · refine ⟨rfl, fun k => State.route_modRoute (s.writeProven _ _) r k _, fun k hk => ?_, ?_⟩
    · rw [State.elem_modRoute, State.writeProven, State.elem_modElem, if_neg hk]
    · rw [State.elem_modRoute, State.writeProven, State.elem_modElem, if_pos rfl]
  · refine ⟨rfl, fun k => State.route_modRoute (s.commandAspect _ _) r k _, fun k hk => ?_, ?_⟩
    · rw [State.elem_modRoute, State.commandAspect, State.elem_modElem, if_neg hk]
    · rw [State.elem_modRoute, State.commandAspect, State.elem_modElem, if_pos rfl]

/-- A BORDER element that a route holds is given back. -/
theorem State.freeBorder_leaves (s : State) (r e : Nat) :
    s.freeBorder r e = { s with elems := (s.freeBorder r e).elems } ∧
    ((s.freeBorder r e).elem e).lockOwner ≠ some r ∧ ∀ k, k ≠ e → (s.freeBorder r e).elem k = s.elem k := by
  unfold State.freeBorder
  split
  · refine ⟨rfl, ?_, fun k hk => ?_⟩
    · rw [State.unlock, State.elem_modElem, if_pos rfl]
      simp
    · rw [State.unlock, State.elem_modElem, if_neg hk]
  · next h => exact ⟨rfl, h, fun _ _ => rfl⟩

/-! ### Withdraw in IN_HELD -/

/-- The end of the transaction that a Withdraw names, and of its entry route (R149). -/
def Ev.withdrawn (ev : Ev) (l : Link) (e : Nat) (tx : BorderTx) : Ev :=
  ev.part .withdrawn 0 (fun b => b.changeTrans l e {} tx.reference (.received .withdraw) (some tx.reason))

theorem Ev.withdraw_of_inHeld {ev : Ev} {l : Link} {tx : BorderTx} {e : Nat} (h : (ev.s.transOf e).state = .inHeld)
    (hr : (ev.s.transOf e).reference = some tx.reference) : ev.withdraw l tx e =
    (ev.withdrawn l e tx).part .withdrawn 1 (fun b =>
      match ev.s.entryUnder l e tx.reference (fun _ => true) with
      | some r => b.withdrawHeld l e r tx.reference
      | none => b) := by
  unfold Ev.withdraw
  simp only [h, hr, if_true]
  rfl

theorem Ev.withdrawn_fields (ev : Ev) (l : Link) (e : Nat) (tx : BorderTx) :
    (ev.withdrawn l e tx).before = ev.before ∧ (ev.withdrawn l e tx).s = ev.s.setTrans e {} := ⟨rfl, rfl⟩

theorem Ev.withdrawn_raised (ev : Ev) (l : Link) {e : Nat} {tx : BorderTx} (h : (ev.s.transOf e).state = .inHeld) :
    (ev.withdrawn l e tx).raised (.border l) (.border
      { designation := ev.s.desig e, link := l, point := ev.s.pointByte e, before := some .inHeld, after := some .idle,
        reference := tx.reference, cause := .received .withdraw, reason := some tx.reason }) := by
  rw [← h]
  exact ev.raised_part _ _ _ (Ev.raised_changeTrans { ev with offers := [] } l e {} _ _ _)

/-- A Withdraw for an entry request that is QUEUED (R94, R149). -/
theorem Ev.withdrawRequest_of_queued {ev : Ev} {l : Link} {e r : Nat} {ref : Byte} {settingToo : Bool}
    (hu : ev.s.entryUnder l e ref (fun x => x == .queued || (settingToo && x == .setting)) = some r)
    (hq : (ev.s.route r).state = .queued) :
    ev.withdrawRequest l e ref settingToo = ev.cancelQueued r .cancelled false := by
  unfold Ev.withdrawRequest
  rw [hu]
  exact if_pos hq

/-- What the release of a withdrawn entry route leaves, whichever branch R149 takes. -/
theorem Ev.withdrawHeld_leaves (ev : Ev) (l : Link) (e r : Nat) (ref : Byte) (hs : (ev.s.rrow r).start = e)
    (hk : ev.s.routeKind r = some .entry) :
    (ev.withdrawHeld l e r ref).before = ev.before ∧
    (∀ k, ev.s.transOf k = {} → (ev.withdrawHeld l e r ref).s.transOf k = {}) ∧
    ((ev.s.route r).groups.any GroupState.entered = false → (ev.withdrawHeld l e r ref).s.route r = {} ∧
      ((ev.s.route r).state = .cleared → ((ev.withdrawHeld l e r ref).s.elem e).proven = false)) ∧
    ((ev.s.route r).groups.any GroupState.entered = true →
      ((ev.withdrawHeld l e r ref).s.elem e).lockOwner ≠ some r ∧
      (ev.withdrawHeld l e r ref).s.latches.getLsbD 3 = true ∧ (ev.withdrawHeld l e r ref).s.routes = ev.s.routes) := by
  unfold Ev.withdrawHeld
  dsimp only
  split
  · next hg =>
    obtain ⟨hframe, hlock, -⟩ := ev.s.freeBorder_leaves r e
    have hroutes : (ev.s.freeBorder r e).routes = ev.s.routes := by rw [hframe]
    have htrans : (ev.s.freeBorder r e).transOf = ev.s.transOf := State.transOf_congr (by rw [hframe])
    have hfields (f : FaultReport) : ((ev.on (fun s => s.freeBorder r e)).fault (.border l) f).s.transOf =
        (ev.s.freeBorder r e).transOf := rfl
    refine ⟨rfl, fun k hk => ?_, fun h => absurd hg (by simp [h]), fun _ => ⟨hlock, ?_, hroutes⟩⟩
    · rw [hfields, htrans]
      exact hk
    · exact getLsbD_setLatch_self (ev.s.freeBorder r e).latches .borderFault
  · next hg =>
    split
    · next hc =>
      obtain ⟨hframe, hroute, -, hproven⟩ := ev.s.writeAspect_leaves r .danger
      have hentry : ev.s.isEntry r = true := by simp [State.isEntry, hk]
      rw [if_pos hentry, hs] at hproven
      have released := (ev.toDanger r).fullRelease_released r
      have htrans : (ev.toDanger r).s.transOf = ev.s.transOf := State.transOf_congr (by rw [Ev.toDanger, Ev.on, hframe])
      refine ⟨released.before, fun k hk => released.cleared k (by rw [htrans]; exact hk), fun _ => ⟨released.route,
        fun _ => ?_⟩, fun h => absurd h hg⟩
      exact (Elem.unheld_fields (released.unheld e)).2.1.trans hproven
    · next hc =>
      have released := ev.fullRelease_released r
      exact ⟨released.before, released.cleared, fun _ => ⟨released.route, fun h => absurd h hc⟩, fun h => absurd h hg⟩

/-! ### Handback -/

theorem State.frame_of_border {s v w : State} (h : v = { s with trans := v.trans }) (k : w = { v with elems := w.elems }) :
    w = { s with trans := w.trans, elems := w.elems } := by
  have ht : w.trans = v.trans := by rw [k]
  rw [ht]
  rw [h] at k
  exact k


/-- The end of the transaction that a Handback names (R150). -/
def Ev.handedBack (ev : Ev) (l : Link) (e : Nat) (tx : BorderTx) : Ev :=
  ev.changeTrans l e {} tx.reference (.received .handback) none

theorem Ev.handback_of_inHeld {ev : Ev} {l : Link} {tx : BorderTx} {e : Nat} (h : (ev.s.transOf e).state = .inHeld)
    (hr : (ev.s.transOf e).reference = some tx.reference) : ev.handback l tx e =
    match ev.s.entryUnder l e tx.reference (fun _ => true) with
    | some r => (ev.handedBack l e tx).on (fun s => s.freeBorder r e)
    | none => ev.handedBack l e tx := by
  unfold Ev.handback
  dsimp only
  rw [if_pos ⟨h, hr⟩]
  rfl

end Sys2Proof.Machine

section

open Sys2Proof Sys2Proof.Machine

theorem withdrawEndsEntry : Claims.WithdrawEndsEntry := by
  intro l p s e hf hu he
  refine ⟨fun ht href => ?_, fun r ht hentry hq => ?_⟩
  · have ht' : ((Ev.heard s l).s.transOf e).state = .inHeld := by simpa using ht
    have href' : ((Ev.heard s l).s.transOf e).reference = some (borderTxOf .withdraw p).reference := by simpa using href
    have hentry' : (Ev.heard s l).s.entryUnder l e (borderTxOf .withdraw p).reference (fun _ => true) =
        s.entryUnder l e (byteAt p 1) (fun _ => true) := by simp
    have hev := Ev.withdraw_of_inHeld (l := l) ht' href'
    have hraised := (Ev.heard s l).withdrawn_raised l (tx := borderTxOf .withdraw p) ht'
    have hv := (Ev.heard s l).withdrawn_fields l e (borderTxOf .withdraw p)
    rw [hentry'] at hev
    simp only [Ev.heard_fields, State.taken_reads] at hraised hv
    generalize (Ev.heard s l).withdrawn l e (borderTxOf .withdraw p) = v at hev hv hraised
    obtain ⟨hbefore, hs⟩ := hv
    have hidle : v.s.transOf e = {} := by rw [hs, State.transOf_setTrans, if_pos rfl]
    have hexec := (exec_withdraw l p s hf hu he).trans (congrArg (fun ev => Host.Outcome.next ev.settle) hev)
    have hkept (g : Ev → Ev) := Ev.raised_mono (v.offers_kept_part .withdrawn 1 g) hraised
    refine ⟨_, hexec, ?_⟩
    cases hn : s.entryUnder l e (byteAt p 1) (fun _ => true) with
    | none => exact ⟨hbefore, hidle, hkept _, fun _ => hs, fun r hr => (Option.some_ne_none r hr.symm).elim⟩
    | some r =>
      obtain ⟨hk, hstart, -, -⟩ := State.entryUnder_spec hn
      have hroute : v.s.route = s.route := by rw [hs]; simp
      have hroutes : v.s.routes = s.routes := by rw [hs]; simp
      obtain ⟨hb, hclear, hfree, hentered⟩ := Ev.withdrawHeld_leaves { v with offers := [] } l e r (byteAt p 1)
        (by rw [hs]; simpa using hstart) (by rw [hs]; simpa using hk)
      rw [hroute] at hfree hentered
      rw [hroutes] at hentered
      refine ⟨hb.trans hbefore, hclear e hidle, hkept _, fun h => (Option.some_ne_none r h).elim, fun q hq => ?_⟩
      obtain rfl : r = q := Option.some.inj hq
      exact ⟨hfree, hentered⟩
  · have hw : (s.route r).state ≠ .cleared := by simp [hq]
    have hw' : ((s.taken l.port).route r).state ≠ .cleared := by simpa using hw
    have hq' : ((Ev.heard s l).s.route r).state = .queued := by simpa using hq
    have hentry' : (Ev.heard s l).s.entryUnder l e (borderTxOf .withdraw p).reference
        (fun x => x == .queued || ((s.transOf e).state == .idle && x == .setting)) = some r := by simpa using hentry
    have hev : (Ev.heard s l).withdraw l (borderTxOf .withdraw p) e = (Ev.heard s l).cancelQueued r .cancelled false := by
      rcases ht with ht | ht
      · rw [ht] at hentry'
        rw [Ev.withdraw_of_idle (by simpa using ht)]
        exact Ev.withdrawRequest_of_queued (settingToo := true) hentry' hq'
      · rw [ht] at hentry'
        rw [Ev.withdraw_of_offerSent (by simpa using ht)]
        exact Ev.withdrawRequest_of_queued (settingToo := false) hentry' hq'
    refine (exec_withdraw l p s hf hu he).trans (congrArg Host.Outcome.next ?_)
    rw [hev, Ev.cancelQueued_eq]
    refine (((s.alike_taken (.inr hu)).trans (State.alike_unqueueing _ hw')).settle _).trans
      (State.reporting_congr ?_ ?_)
    · simp [State.unqueueing]
    · simp [State.routeOffer]

theorem handbackEndsTransaction : Claims.HandbackEndsTransaction := by
  intro l p s e hf hu he ht href
  have ht' : ((Ev.heard s l).s.transOf e).state = .inHeld := by simpa using ht
  have hev := Ev.handback_of_inHeld (l := l) (tx := borderTxOf .handback p) ht' (by simpa using href)
  have hentry : (Ev.heard s l).s.entryUnder l e (borderTxOf .handback p).reference (fun _ => true) =
      s.entryUnder l e (byteAt p 1) (fun _ => true) := by simp
  have hraised := Ev.raised_changeTrans (Ev.heard s l) l e {} (borderTxOf .handback p).reference (.received .handback)
    none
  rw [ht'] at hraised
  rw [hentry] at hev
  have hs : ((Ev.heard s l).handedBack l e (borderTxOf .handback p)).s = (s.taken l.port).setTrans e {} := rfl
  have hb : ((Ev.heard s l).handedBack l e (borderTxOf .handback p)).before = s := rfl
  change ((Ev.heard s l).handedBack l e (borderTxOf .handback p)).raised _ _ at hraised
  simp only [Ev.heard_fields, State.taken_reads] at hraised
  generalize (Ev.heard s l).handedBack l e (borderTxOf .handback p) = v at hev hs hb hraised
  have hidle : v.s.transOf e = {} := by rw [hs, State.transOf_setTrans, if_pos rfl]
  have helem : v.s.elem = s.elem := by rw [hs]; simp
  have hframe : v.s = { s.taken l.port with trans := v.s.trans } := by rw [hs]; rfl
  have helems : v.s.elems = (s.taken l.port).elems := by rw [hframe]
  refine ⟨_, (exec_handback l p s hf hu he).trans (congrArg (fun ev => Host.Outcome.next ev.settle) hev), ?_⟩
  cases hn : s.entryUnder l e (byteAt p 1) (fun _ => true) with
  | none =>
    refine ⟨hb, hidle, fun r hr => (Option.some_ne_none r hr.symm).elim, fun k _ => by rw [helem], hraised, ?_⟩
    rw [helems]
    exact hframe
  | some r =>
    obtain ⟨hfreed, hlock, hothers⟩ := v.s.freeBorder_leaves r e
    refine ⟨hb, ?_, fun q hq => ?_, fun k hk => (hothers k hk).trans (by rw [helem]), hraised, ?_⟩
    · exact (congrFun (State.transOf_congr (by change (v.s.freeBorder r e).trans = v.s.trans; rw [hfreed])) e).trans hidle
    · obtain rfl : r = q := Option.some.inj hq
      exact hlock
    · exact State.frame_of_border hframe hfreed

/-- Settles O43: the end of the transaction, and of the entry route or request that it names. -/
theorem withdrawAndHandback : Obligations.WithdrawAndHandback :=
  ⟨withdrawEndsEntry, withdrawEndsSetting, handbackEndsTransaction⟩

end

/-! PROOF SUPPORT. A route put to danger, and the wait for its release timer (R63, R66, R124, R135). -/

namespace Sys2Proof.Machine

/-! ### What a route shows does not enter the conditions -/

/-- What is handed on of an element, without the aspect and the proven flag that routes command. -/
def HandView.unshown (v : HandView) : HandView := { v with record := { v.record with aspect := .danger, proven := false } }

/-- The conditions do not read the commanded aspect or the proven flag (R4, R5). -/
theorem State.holds_of_unshown {s t : State} (h1 : t.store = s.store) (h2 : t.tablesValid = s.tablesValid) (e : Nat)
    (hv : (s.handView e).unshown = (t.handView e).unshown) (c : Cond) : t.holds e c = s.holds e c := by
  have hk := State.kind_congr h1 h2 e
  simp only [HandView.unshown, State.handView, HandView.mk.injEq, Elem.mk.injEq] at hv
  obtain ⟨⟨a1, a2, a3, a4, a5, a6, a7, a8, a9, a10, a11, a12, -⟩, b1, b2, b3⟩ := hv
  simp only [State.holds, State.inControl, hk, ← a1, ← a2, ← a3, ← a4, ← a8, ← a9, ← a11, ← a12, ← b1, ← b2, ← b3]

theorem State.elem_writeAspect (s : State) (r : Nat) (a : Aspect) (k : Nat) :
    ∃ x y, (s.writeAspect r a).elem k = { s.elem k with aspect := x, proven := y } := by
  unfold State.writeAspect
  dsimp only
  rw [State.elem_modRoute]
  split
  · rw [State.writeProven, State.elem_modElem]
    split
    · next h => exact ⟨_, _, by rw [h]⟩
    · exact ⟨_, _, rfl⟩
  · rw [State.commandAspect, State.elem_modElem]
    split
    · next h => exact ⟨_, _, by rw [h]⟩
    · exact ⟨_, _, rfl⟩

/-- Only elements and routes differ, the elements in what they show: the conditions are the same. -/
theorem State.holds_of_shown {s t : State} (hframe : t = { s with elems := t.elems, routes := t.routes })
    (h : ∀ k, ∃ x y, t.elem k = { s.elem k with aspect := x, proven := y }) : t.holds = s.holds := by
  obtain ⟨h1, h2, h3, h4, h5, h6⟩ : t.store = s.store ∧ t.tablesValid = s.tablesValid ∧ t.isBlocked = s.isBlocked ∧
      t.transOf = s.transOf ∧ t.link = s.link ∧ t.elemLink = s.elemLink := by
    rw [hframe]
    exact ⟨rfl, rfl, rfl, rfl, rfl, rfl⟩
  funext e c
  refine State.holds_of_unshown h1 h2 e ?_ c
  obtain ⟨x, y, he⟩ := h e
  simp only [HandView.unshown, State.handView, State.supervised, State.linkHolds, he, h3, h4, h5, h6,
    State.kind_congr h1 h2]

/-! ### A route put to danger -/

theorem State.frame_of_written {s v w : State} (h : v = { s with elems := v.elems, routes := v.routes })
    (k : w = { v with routes := w.routes }) : w = { s with elems := w.elems, routes := w.routes } := by
  have he : w.elems = v.elems := by rw [k]
  rw [he]
  rw [h] at k
  exact k

/-- A route's signal is put to danger, or its proven flag cleared, and its record written (R124, R135). -/
def State.halting (s : State) (r : Nat) (f : RouteRec → RouteRec) : State := (s.writeAspect r .danger).modRoute r f

theorem State.halting_leaves (s : State) (r : Nat) (f : RouteRec → RouteRec) :
    s.halting r f = { s with elems := (s.halting r f).elems, routes := (s.halting r f).routes } ∧
    (∀ k, (s.halting r f).route k = if k = r then f { s.route r with aspect := .danger } else s.route k) ∧
    (if s.isEntry r then ((s.halting r f).elem (s.rrow r).start).proven = false
     else ((s.halting r f).elem (s.rrow r).start).aspect = .danger) ∧
    (s.halting r f).holds = s.holds := by
  obtain ⟨hframe, hroute, -, hshown⟩ := s.writeAspect_leaves r .danger
  have hwritten := State.elem_writeAspect s r .danger
  unfold State.halting
  generalize s.writeAspect r .danger = v at *
  have hframe' : v.modRoute r f = { s with elems := (v.modRoute r f).elems, routes := (v.modRoute r f).routes } :=
    State.frame_of_written hframe rfl
  refine ⟨hframe', fun k => ?_, hshown, State.holds_of_shown hframe' hwritten⟩
  rw [State.route_modRoute, hroute, if_pos rfl, hroute]
  split <;> rfl

/-! ### The wait for a release timer -/

/-- A route that asks for a release timer is released at once where the required time is 0, and waits otherwise. -/
theorem Ev.timedWait_of_zero {ev : Ev} {r : Nat} {p : Purpose} (x : RouteEvent) (h : ev.s.requiredMs r p = 0) :
    ev.timedWait r p x = (ev.on (fun s => s.freeRequest r)).fullRelease r := by
  unfold Ev.timedWait
  rw [(ev.s.timerRequest_answer r p).1 h]
  rfl

theorem Ev.timedWait_of_pos {ev : Ev} {r : Nat} {p : Purpose} (x : RouteEvent) (h : ev.s.requiredMs r p ≠ 0) :
    ev.timedWait r p x = (ev.on (fun _ => (ev.s.timerRequest r p).1)).routeEvent r x := by
  obtain ⟨hne, -⟩ := (ev.s.timerRequest_answer r p).2 h
  unfold Ev.timedWait
  generalize ev.s.timerRequest r p = z at hne ⊢
  obtain ⟨t, a⟩ := z
  cases a with
  | immediate => exact absurd rfl hne
  | _ => rfl

/-- What a route leaves that asks for a release timer. -/
structure Ev.Waits (a b : Ev) (r : Nat) (p : Purpose) : Prop where
  before : b.before = a.before
  reached : b.reached = a.reached
  unheld : ∀ e, (b.s.elem e).unheld = (a.s.elem e).unheld
  others : ∀ k, k ≠ r → (b.s.route k).sameButTimer (a.s.route k)
  contexts : b.s.contexts = a.s.contexts ∧ b.s.ctxTimers = a.s.ctxTimers
  cleared : ∀ e, a.s.transOf e = {} → b.s.transOf e = {}
  offers : a.offers <+: b.offers
  released : a.s.requiredMs r p = 0 → b.s.route r = {} ∧ Claims.borderSideEnds a.s r a.s.sent b
  waits : a.s.requiredMs r p ≠ 0 → (b.s.route r).sameButTimer (a.s.route r) ∧ (b.s.route r).purpose = p ∧
    b.s.trans = a.s.trans ∧ b.s.sent = a.s.sent

theorem State.shared_of_timed {s t : State} (h : s.Timed t) :
    (t.rrow = s.rrow ∧ t.desig = s.desig ∧ t.pointByte = s.pointByte ∧ t.routeKind = s.routeKind ∧
      t.elemLink = s.elemLink) ∧ t.trans = s.trans ∧ t.sent = s.sent ∧ t.elem = s.elem ∧
    t.contexts = s.contexts ∧ t.ctxTimers = s.ctxTimers := by
  rw [h.frame]
  exact ⟨⟨rfl, rfl, rfl, rfl, rfl⟩, rfl, rfl, rfl, rfl, rfl⟩

theorem Ev.timedWait_waits (ev : Ev) (r : Nat) (p : Purpose) (x : RouteEvent) : Ev.Waits ev (ev.timedWait r p x) r p := by
  by_cases h : ev.s.requiredMs r p = 0
  · have released := (ev.on (fun s => s.freeRequest r)).fullRelease_released r
    have htimed := ev.s.freeRequest_timed r
    obtain ⟨htables, htrans, hsent, helem, hctx, hct⟩ := State.shared_of_timed htimed
    rw [Ev.timedWait_of_zero x h]
    generalize (ev.on (fun s => s.freeRequest r)).fullRelease r = b at *
    obtain ⟨hbefore, hreached, hroute, hothers, -, hunheld, hborder, hcleared, ⟨hctx', hct'⟩, hoffers, -, -, -⟩ := released
    simp only [Ev.on] at hbefore hreached hroute hothers hunheld hborder hcleared hctx' hct' hoffers
    exact {
      before := hbefore
      reached := hreached
      unheld := fun e => by rw [hunheld, helem]
      others := fun k hk => (hothers k hk).trans (htimed.route k)
      contexts := ⟨hctx'.trans hctx, hct'.trans hct⟩
      cleared := fun e he => hcleared e (by rw [State.transOf_congr htrans]; exact he)
      offers := hoffers
      released := fun _ => ⟨hroute, borderSideEnds_congr (hsent ▸ hborder) htables
        (RouteRec.sameButTimer_fields (htimed.route r)).2.2.2.2.2.1 htrans⟩
      waits := fun hn => absurd h hn }
  · have htimed := ev.s.timerRequest_timed r p
    obtain ⟨-, htrans, hsent, helem, hctx, hct⟩ := State.shared_of_timed htimed
    obtain ⟨-, hpurpose⟩ := (ev.s.timerRequest_answer r p).2 h
    rw [Ev.timedWait_of_pos x h]
    exact {
      before := rfl
      reached := rfl
      unheld := fun e => congrArg (fun f => (f e).unheld) helem
      others := fun k _ => htimed.route k
      contexts := ⟨hctx, hct⟩
      cleared := fun e he => (congrFun (State.transOf_congr htrans) e).trans he
      offers := List.prefix_append _ _
      released := fun h0 => absurd h0 h
      waits := fun _ => ⟨htimed.route r, hpurpose, htrans, hsent⟩ }

end Sys2Proof.Machine

/-! PROOF SUPPORT. Cancel Route on a LOCKED or CLEARED route (R91, R124 to R128). -/

namespace Sys2Proof.Machine

theorem State.approachTest_congr {s t : State} (h1 : t.store = s.store) (h2 : t.holds = s.holds) :
    t.approachTest = s.approachTest := by
  funext r
  unfold State.approachTest State.clearOf State.extraTest State.passesTest State.rrow
  rw [h1, h2]

/-- What a state shares with the one it comes from by writes of elements and routes. -/
theorem State.shared_of_written {s t : State} (h : t = { s with elems := t.elems, routes := t.routes }) :
    (t.rrow = s.rrow ∧ t.desig = s.desig ∧ t.pointByte = s.pointByte ∧ t.routeKind = s.routeKind ∧
      t.elemLink = s.elemLink) ∧ t.trans = s.trans ∧ t.sent = s.sent ∧ t.store = s.store ∧ t.isEntry = s.isEntry ∧
    t.requiredMs = s.requiredMs := by
  rw [h]
  exact ⟨⟨rfl, rfl, rfl, rfl, rfl⟩, rfl, rfl, rfl, rfl, rfl⟩

/-- What the state shows at the start of a route put to danger. -/
def State.atDanger (s u : State) (r : Nat) : Prop :=
  if s.isEntry r then (u.elem (s.rrow r).start).proven = false else (u.elem (s.rrow r).start).aspect = .danger

theorem State.atDanger_of_unheld {s t u : State} {r : Nat} (h : s.atDanger t r)
    (hu : ∀ e, (u.elem e).unheld = (t.elem e).unheld) : s.atDanger u r := by
  obtain ⟨haspect, hproven, -, -⟩ := Elem.unheld_fields (hu (s.rrow r).start)
  unfold State.atDanger at h ⊢
  rwa [haspect, hproven]

/-- A route put to danger whose record keeps its groups. -/
structure State.Halted (s t : State) (r : Nat) (w : RouteRec) : Prop where
  frame : t = { s with elems := t.elems, routes := t.routes }
  route : ∀ k, t.route k = if k = r then w else s.route k
  groups : w.groups = (s.route r).groups
  danger : s.atDanger t r
  holds : t.holds = s.holds

theorem State.halting_halted (s : State) (r : Nat) (f : RouteRec → RouteRec) (hf : ∀ w, (f w).groups = w.groups) :
    s.Halted (s.halting r f) r (f { s.route r with aspect := .danger }) := by
  obtain ⟨hframe, hroute, hdanger, hholds⟩ := s.halting_leaves r f
  exact ⟨hframe, hroute, hf _, hdanger, hholds⟩

theorem State.Halted.modRoute {s t : State} {r : Nat} {w : RouteRec} (h : s.Halted t r w) (f : RouteRec → RouteRec)
    (hf : (f w).groups = w.groups) : s.Halted (t.modRoute r f) r (f w) where
  frame := State.frame_of_written h.frame rfl
  route k := by
    rw [State.route_modRoute, h.route, h.route, if_pos rfl]
    split <;> rfl
  groups := hf.trans h.groups
  danger := h.danger
  holds := by
    refine State.holds_of_shown (State.frame_of_written (v := t) ?_ rfl) (fun k => ?_) |>.trans h.holds
    · rfl
    · exact ⟨_, _, rfl⟩

/-- What a cancelled route leaves that is LOCKED or CLEARED. -/
structure Ev.Cancelled (a b : Ev) (r : Nat) : Prop where
  before : b.before = a.before
  reached : b.reached = a.reached
  clearWanted : (b.s.route r).clearWanted = false
  danger : a.s.atDanger b.s r
  released : b.s.route r = {} → Claims.borderSideEnds a.s r a.s.sent b
  waits : b.s.route r ≠ {} → b.s.trans = a.s.trans ∧ b.s.sent = a.s.sent

theorem Ev.cancelled_of_released {a b : Ev} {r : Nat} {t : State} {w : RouteRec} (h : a.s.Halted t r w)
    (hb : b = (a.on (fun _ => t)).fullRelease r) : Ev.Cancelled a b r ∧ b.s.route r = {} := by
  have released := (a.on (fun _ => t)).fullRelease_released r
  rw [← hb] at released
  obtain ⟨hbefore, hreached, hroute, -, -, hunheld, hborder, -, -, -, -, -, -⟩ := released
  simp only [Ev.on] at hbefore hreached hunheld hborder
  obtain ⟨htables, htrans, hsent, -, -, -⟩ := State.shared_of_written h.frame
  have hgroups : (t.route r).groups = (a.s.route r).groups := by rw [h.route, if_pos rfl, h.groups]
  refine ⟨?_, hroute⟩
  exact {
    before := hbefore
    reached := hreached
    clearWanted := by rw [hroute]
    danger := State.atDanger_of_unheld h.danger hunheld
    released := fun _ => borderSideEnds_congr (hsent ▸ hborder) htables hgroups htrans
    waits := fun hn => absurd hroute hn }

theorem Ev.cancelled_of_timedWait {a b : Ev} {r : Nat} {t : State} {w : RouteRec} {p : Purpose} {x : RouteEvent}
    (h : a.s.Halted t r w) (hw : w.clearWanted = false) (hs : w.state = .cancelling)
    (hb : b = (a.on (fun _ => t)).timedWait r p x) : Ev.Cancelled a b r ∧
    (if a.s.requiredMs r p = 0 then b.s.route r = {}
     else (b.s.route r).state = .cancelling ∧ (b.s.route r).purpose = p) := by
  have waits := (a.on (fun _ => t)).timedWait_waits r p x
  rw [← hb] at waits
  obtain ⟨hbefore, hreached, hunheld, -, -, -, -, hreleased, hwaits⟩ := waits
  simp only [Ev.on] at hbefore hreached hunheld hreleased hwaits
  obtain ⟨htables, htrans, hsent, -, -, hms⟩ := State.shared_of_written h.frame
  have hrec : t.route r = w := by rw [h.route, if_pos rfl]
  have hgroups : (t.route r).groups = (a.s.route r).groups := by rw [hrec, h.groups]
  rw [hms] at hreleased hwaits
  have hdanger := State.atDanger_of_unheld h.danger hunheld
  by_cases h0 : a.s.requiredMs r p = 0
  · obtain ⟨hroute, hborder⟩ := hreleased h0
    rw [if_pos h0]
    refine ⟨?_, hroute⟩
    exact {
      before := hbefore
      reached := hreached
      clearWanted := by rw [hroute]
      danger := hdanger
      released := fun _ => borderSideEnds_congr (hsent ▸ hborder) htables hgroups htrans
      waits := fun hn => absurd hroute hn }
  · obtain ⟨hsame, hpurpose, ht, hs'⟩ := hwaits h0
    rw [hrec] at hsame
    obtain ⟨hstate, -, -, hclear, -⟩ := RouteRec.sameButTimer_fields hsame
    rw [if_neg h0]
    refine ⟨?_, hstate.trans hs, hpurpose⟩
    exact {
      before := hbefore
      reached := hreached
      clearWanted := hclear.trans hw
      danger := hdanger
      released := fun hn => by rw [hn, hs] at hstate; cases hstate
      waits := fun _ => ⟨ht.trans htrans, hs'.trans hsent⟩ }

theorem Ev.cancelled_of_event {a b : Ev} {r : Nat} {t : State} {w : RouteRec} {x : RouteEvent}
    (h : a.s.Halted t r w) (hw : w.clearWanted = false) (hs : w.state = .cancelling)
    (hb : b = (a.on (fun _ => t)).routeEvent r x) : Ev.Cancelled a b r ∧ b.s.route r = w := by
  obtain ⟨-, htrans, hsent, -, -, -⟩ := State.shared_of_written h.frame
  have hroute : b.s.route r = w := by
    rw [hb]
    exact (h.route r).trans (if_pos rfl)
  subst hb
  refine ⟨?_, hroute⟩
  exact {
    before := rfl
    reached := rfl
    clearWanted := by rw [hroute, hw]
    danger := h.danger
    released := fun hn => by rw [hroute] at hn; rw [hn] at hs; cases hs
    waits := fun _ => ⟨htrans, hsent⟩ }

theorem Ev.cancelRoute_of_locked {ev : Ev} {r : Nat} (tag : Half)
    (hs : (ev.s.route r).state = .locked ∨ (ev.s.route r).state = .cleared) :
    Ev.cancelRoute tag ev r = ((ev.answer .cancelRoute tag .accepted).cancelLocked r).reach r := by
  unfold Ev.cancelRoute
  rcases hs with hs | hs <;> rw [hs]

theorem State.answering_holds (s : State) (q : Req) (tag : Half) (code : ReplyCode) :
    (s.answering q tag code).holds = s.holds := s.takenC_holds

/-- What follows once the signal of a cancelled route is put to danger (R124 to R127). -/
def Ev.cancelHalted (ev : Ev) (r : Nat) (wasCleared : Bool) (t : State) : Ev :=
  if t.isEntry r then (ev.on (fun _ => t)).fullRelease r
  else if wasCleared && !t.approachTest r then
    (ev.on (fun _ => t.modRoute r (fun w => { w with state := .cancelling }))).timedWait r .approach (.cancelling .approach)
  else if t.holds (t.rrow r).start .dangerProven then (ev.on (fun _ => t)).fullRelease r
  else (ev.on (fun _ => t.modRoute r (fun w => { w with state := .cancelling }))).routeEvent r (.cancelling .none)

theorem Ev.cancelLocked_eq (ev : Ev) (r : Nat) : ev.cancelLocked r =
    ev.cancelHalted r (ev.s.route r).wasCleared (ev.s.halting r (fun w => { w with clearWanted := false })) := rfl

/-- The state in which a cancelled route is found, by the branches of R124 to R127. -/
def Ev.cancelledAs (a b : Ev) (r : Nat) : Prop :=
  if a.s.isEntry r then b.s.route r = {}
  else if (a.s.route r).wasCleared = true ∧ a.s.approachTest r = false then
    if a.s.requiredMs r .approach = 0 then b.s.route r = {}
    else (b.s.route r).state = .cancelling ∧ (b.s.route r).purpose = .approach
  else if a.s.holds (a.s.rrow r).start .dangerProven then b.s.route r = {}
  else (b.s.route r).state = .cancelling ∧ (b.s.route r).purpose = (a.s.route r).purpose

theorem Ev.cancelHalted_cancelled {ev : Ev} {r : Nat} {t : State} {w : RouteRec} (h : ev.s.Halted t r w)
    (hw : w.clearWanted = false) (hp : w.purpose = (ev.s.route r).purpose) :
    Ev.Cancelled ev (ev.cancelHalted r (ev.s.route r).wasCleared t) r ∧
    Ev.cancelledAs ev (ev.cancelHalted r (ev.s.route r).wasCleared t) r := by
  obtain ⟨⟨hrow, -⟩, -, -, hstore, hentry, -⟩ := State.shared_of_written h.frame
  have hwait := h.modRoute (fun w => { w with state := .cancelling }) rfl
  unfold Ev.cancelHalted Ev.cancelledAs
  rw [hentry, State.approachTest_congr hstore h.holds, h.holds, hrow]
  split
  · exact Ev.cancelled_of_released h rfl
  · simp only [Bool.and_eq_true, Bool.not_eq_true']
    split
    · exact Ev.cancelled_of_timedWait hwait hw rfl rfl
    · split
      · exact Ev.cancelled_of_released h rfl
      · obtain ⟨hc, hroute⟩ := Ev.cancelled_of_event (x := .cancelling .none) hwait hw rfl rfl
        exact ⟨hc, by rw [hroute], by rw [hroute]; exact hp⟩

theorem Ev.cancelLocked_cancelled (ev : Ev) (r : Nat) :
    Ev.Cancelled ev (ev.cancelLocked r) r ∧ Ev.cancelledAs ev (ev.cancelLocked r) r := by
  rw [Ev.cancelLocked_eq]
  exact Ev.cancelHalted_cancelled (ev.s.halting_halted r _ (fun _ => rfl)) rfl rfl

end Sys2Proof.Machine

section

open Sys2Proof Sys2Proof.Machine

/-- Settles O17: the branches of R124 to R127 on the state with the Reply sent. -/
theorem cancelLockedRoute : Obligations.CancelLockedRoute := by
  intro tag p s r ha hp hs
  have hbody : Ev.cancelRoute tag (Ev.asked s) r =
      ((⟨s, s.answering .cancelRoute tag .accepted, s.linkOffers .c, []⟩ : Ev).cancelLocked r).reach r :=
    Ev.cancelRoute_of_locked tag hs
  obtain ⟨hc, has⟩ := Ev.cancelLocked_cancelled ⟨s, s.answering .cancelRoute tag .accepted, s.linkOffers .c, []⟩ r
  have hhanded := (s.answering_handedOn .cancelRoute tag .accepted).trans
    (Ev.cancelLocked_handedOn ⟨s, s.answering .cancelRoute tag .accepted, s.linkOffers .c, []⟩ r)
  have hprefix := (Ev.cancelLocked_handedOn ⟨s, s.answering .cancelRoute tag .accepted, s.linkOffers .c, []⟩ r).sent
  refine ⟨_, (exec_cancelRoute_of_found tag ha hp).trans (congrArg (fun ev => Host.Outcome.next ev.settle) hbody), ?_⟩
  generalize Ev.cancelLocked _ r = b at *
  refine ⟨hc.before, List.mem_cons_self .., hprefix, hc.clearWanted, hc.danger, ?_, ⟨fun hf => ?_, hc.waits⟩,
    hhanded.bare, hhanded.frame⟩
  · have hholds := s.answering_holds .cancelRoute tag .accepted
    unfold Ev.cancelledAs at has
    dsimp only at has
    rw [State.approachTest_congr (s := s) (t := s.answering .cancelRoute tag .accepted) rfl hholds, hholds] at has
    exact has
  · exact hc.released hf

end

/-! PROOF SUPPORT. The expiry of a release timer (R67, R68). -/

namespace Sys2Proof.Machine

/-! ### A route gives up locks and claims -/

/-- A route gives up locks and claims: of the routes only its own flank records change, of the elements only who holds
them (R129, R132). -/
structure State.Eased (s t : State) (r : Nat) : Prop where
  frame : t = { s with elems := t.elems, routes := t.routes }
  unheld : ∀ k, (t.elem k).unheld = (s.elem k).unheld
  route : ∀ k, t.route k = if k = r then { s.route r with flank := (t.route r).flank } else s.route k

theorem State.Eased.refl (s : State) (r : Nat) : s.Eased s r := by
  refine ⟨rfl, fun _ => rfl, fun k => ?_⟩
  split
  · next h => rw [h]
  · rfl

theorem State.eased_of_unlocking (s : State) (es : List Nat) (r : Nat) (p : FlankRec → Bool) :
    s.Eased ((es.foldl State.unlock s).dropClaims r p) r where
  frame := State.frame_of_elems (State.foldl_unlock_frame es s) (State.dropClaims_frames _ r p)
  unheld k := (State.unheld_dropClaims _ r p k).trans (State.unheld_foldl_unlock es s k)
  route k := by
    have hroute : (es.foldl State.unlock s).route = s.route := by
      rw [State.foldl_unlock_frame]
      rfl
    have hk (j : Nat) := ((es.foldl State.unlock s).dropClaims_others r p).2.2 j
    rw [hk, hk, if_pos rfl, hroute]

theorem State.releaseOverlap_eased (s : State) (r : Nat) : s.Eased (s.releaseOverlap r) r :=
  State.eased_of_unlocking s _ r _

theorem State.Eased.same {s t : State} {r : Nat} (h : s.Eased t r) :
    (t.route r).groups = (s.route r).groups ∧ (t.route r).origin = (s.route r).origin ∧
    (t.route r).timer = (s.route r).timer ∧ (t.route r).state = (s.route r).state := by
  rw [h.route, if_pos rfl]
  exact ⟨rfl, rfl, rfl, rfl⟩

/-! ### The wait list is served -/

/-- A timer is taken by a route and started (R66). -/
theorem State.grantTimer_gives (s : State) (t r : Nat) (p : Purpose) :
    (s.grantTimer t r p).timerOf t = some ⟨r, p, s.startTimer (timerSetting (s.requiredMs r p))⟩ ∧
    (s.grantTimer t r p).waitList = s.waitList ∧ ((s.grantTimer t r p).route r).timer = some t ∧
    ((s.grantTimer t r p).route r).purpose = p ∧ ((s.grantTimer t r p).route r).deferred = false ∧
    ((s.grantTimer t r p).route r).clamped = (timerSetting (s.requiredMs r p)).clamped ∧
    ∀ k, k ≠ r → (s.grantTimer t r p).route k = s.route k := by
  unfold State.grantTimer
  dsimp only
  refine ⟨?_, rfl, ?_, ?_, ?_, ?_, fun k hk => ?_⟩
  · exact (State.timerOf_setTimer s t t (some ⟨r, p, s.startTimer (timerSetting (s.requiredMs r p))⟩)).trans (if_pos rfl)
  · rw [State.route_modRoute, if_pos rfl]
  · rw [State.route_modRoute, if_pos rfl]
  · rw [State.route_modRoute, if_pos rfl]
  · rw [State.route_modRoute, if_pos rfl]
  · exact (State.route_modRoute _ r k _).trans (if_neg hk)

/-- The head of a wait list has taken the timer that became free, or none waits (R67). -/
def State.served (s : State) (t : Nat) (waiting : List Waiting) (u : State) : Prop :=
  match waiting with
  | [] => u.timerOf t = none ∧ u.waitList = []
  | w :: rest =>
    u.timerOf t = some ⟨w.route, w.purpose, s.startTimer (timerSetting (s.requiredMs w.route w.purpose))⟩ ∧
    u.waitList = rest ∧ (u.route w.route).timer = some t ∧ (u.route w.route).purpose = w.purpose ∧
    (u.route w.route).deferred = false ∧
    (u.route w.route).clamped = (timerSetting (s.requiredMs w.route w.purpose)).clamped

theorem State.freeTimer_serves (s : State) (t : Nat) : s.served t s.waitList (s.freeTimer t) ∧
    ∀ k, (∀ w ∈ s.waitList, w.route ≠ k) → (s.freeTimer t).route k = s.route k := by
  unfold State.freeTimer
  cases hw : s.waitList with
  | nil => exact ⟨⟨(State.timerOf_setTimer s t t none).trans (if_pos rfl), hw⟩, fun _ _ => rfl⟩
  | cons w rest =>
    obtain ⟨htimer, hwait, h1, h2, h3, h4, hothers⟩ :=
      State.grantTimer_gives { s.setTimer t none with waitList := rest } t w.route w.purpose
    exact ⟨⟨htimer, hwait, h1, h2, h3, h4⟩,
      fun k hk => hothers k (fun h => hk w (List.mem_cons_self ..) h.symm)⟩

/-! ### The expiry -/

/-- What the delivery of an expired timer leaves: the owner's overlap where it held that, and its full release (R68). -/
theorem Ev.actOnExpiry_eq (ev : Ev) (h : HeldTimer) (hp : h.purpose ≠ .none) :
    ∃ t, ev.s.Eased t h.owner ∧ ev.actOnExpiry h = (ev.on (fun _ => t)).fullRelease h.owner := by
  unfold Ev.actOnExpiry
  cases hq : h.purpose with
  | approach => exact ⟨ev.s, .refl _ _, rfl⟩
  | overlap => exact ⟨ev.s.releaseOverlap h.owner, ev.s.releaseOverlap_eased _, rfl⟩
  | forced => exact ⟨ev.s, .refl _ _, rfl⟩
  | none => exact absurd hq hp

/-- The state in which the expiry of a release timer is delivered (R68). -/
def State.expiring (s : State) (i : Nat) (h : HeldTimer) : State := (s.setTimer i none).modRoute h.owner RouteRec.noTimer

theorem takeReleaseTimerExpiry_of_expired {s : State} {i : Nat} {h : HeldTimer} (ht : s.timerOf i = some h)
    (he : h.timer.expired = true) : takeReleaseTimerExpiry i s =
      ((((Ev.start s).on (fun s => s.expiring i h)).actOnExpiry h).on (fun s => s.freeTimer i)).settle := by
  unfold takeReleaseTimerExpiry
  rw [ht]
  exact if_pos he

theorem takeReleaseTimerExpiry_of_waiting {s : State} {i : Nat}
    (h : ∀ h, s.timerOf i = some h → h.timer.expired = false) : takeReleaseTimerExpiry i s = s := by
  unfold takeReleaseTimerExpiry
  cases ht : s.timerOf i with
  | none => rfl
  | some x => exact if_neg (by rw [h x ht]; simp)

theorem State.expiring_leaves (s : State) (i : Nat) (h : HeldTimer) :
    s.expiring i h = { s with routes := (s.expiring i h).routes, timers := (s.expiring i h).timers } ∧
    (∀ k, (s.expiring i h).route k = if k = h.owner then (s.route h.owner).noTimer else s.route k) ∧
    HandedOn s (s.expiring i h) := by
  refine ⟨rfl, fun k => State.route_modRoute (s.setTimer i none) h.owner k _, ?_⟩
  exact (s.setTimer_tame i none).handed.trans (State.modRoute_handedOn _ h.owner RouteRec.noTimer)

theorem State.frame_of_eased {s u t : State} (h : u = { s with routes := u.routes, timers := u.timers })
    (k : t = { u with elems := t.elems, routes := t.routes }) :
    t = { s with elems := t.elems, routes := t.routes, timers := t.timers } := by
  have ht : t.timers = u.timers := by rw [k]
  rw [ht]
  rw [h] at k
  exact k

theorem State.shared_of_expired {s t : State}
    (h : t = { s with elems := t.elems, routes := t.routes, timers := t.timers }) :
    (t.rrow = s.rrow ∧ t.desig = s.desig ∧ t.pointByte = s.pointByte ∧ t.routeKind = s.routeKind ∧
      t.elemLink = s.elemLink) ∧ t.trans = s.trans ∧ t.sent = s.sent ∧ t.waitList = s.waitList ∧
    t.routeKeyOf = s.routeKeyOf := by
  rw [h]
  exact ⟨⟨rfl, rfl, rfl, rfl, rfl⟩, rfl, rfl, rfl, rfl⟩

/-- The state in which the full release of an expired timer's owner begins. -/
theorem State.expired_shares {s t : State} {i : Nat} {h : HeldTimer} (heased : (s.begun.expiring i h).Eased t h.owner) :
    (t.rrow = s.rrow ∧ t.desig = s.desig ∧ t.pointByte = s.pointByte ∧ t.routeKind = s.routeKind ∧
      t.elemLink = s.elemLink) ∧ t.trans = s.trans ∧ t.sent = s.sent ∧ t.waitList = s.waitList ∧
    t.routeKeyOf = s.routeKeyOf ∧ (t.route h.owner).groups = (s.route h.owner).groups ∧
    (t.route h.owner).origin = (s.route h.owner).origin ∧ (t.route h.owner).timer = none := by
  obtain ⟨hframe, hroute, -⟩ := s.begun.expiring_leaves i h
  obtain ⟨hgroups, horigin, htimer, -⟩ := heased.same
  obtain ⟨h1, h2, h3, h4, h5⟩ := State.shared_of_expired (State.frame_of_eased hframe heased.frame)
  rw [hroute, if_pos rfl] at hgroups horigin htimer
  exact ⟨h1, h2, h3, h4, h5, hgroups, horigin, htimer⟩

theorem State.served_congr {s t u : State} {i : Nat} {ws : List Waiting} (h : HandedOn s t) (hs : t.served i ws u) :
    s.served i ws u := by
  have hf := h.frame
  have hstart : t.startTimer = s.startTimer ∧ t.requiredMs = s.requiredMs := by
    rw [hf]
    exact ⟨rfl, rfl⟩
  unfold State.served at hs ⊢
  rwa [hstart.1, hstart.2] at hs

theorem exec_releaseTimerExpiry {s : State} {i : Nat} {h : HeldTimer} (ht : s.timerOf i = some h)
    (he : h.timer.expired = true) : exec (.releaseTimerExpiry i) s =
      .next ((((Ev.start s).on (fun s => s.expiring i h)).actOnExpiry h).on (fun s => s.freeTimer i)).settle :=
  congrArg Host.Outcome.next (takeReleaseTimerExpiry_of_expired ht he)

/-- A released route whose timer then serves the wait list. -/
theorem Ev.released_freeTimer {b : Ev} {r i : Nat} {waiting : List Waiting} (hw : b.s.waitList = waiting)
    (hr : ∀ w ∈ waiting, w.route ≠ r) (hroute : b.s.route r = {}) :
    ((b.on (fun s => s.freeTimer i)).s.route r).state = .free ∧
    b.s.served i waiting (b.on (fun s => s.freeTimer i)).s := by
  obtain ⟨hserved, hothers⟩ := b.s.freeTimer_serves i
  rw [hw] at hserved hothers
  refine ⟨?_, hserved⟩
  have h : (b.on (fun s => s.freeTimer i)).s.route r = {} := (hothers r hr).trans hroute
  rw [h]

theorem State.waitingOthers_route {s : State} {r : Nat} : ∀ w ∈ s.waitingOthers r, w.route ≠ r := fun w hw => by
  simpa using (List.mem_filter.1 hw).2

end Sys2Proof.Machine

section

open Sys2Proof Sys2Proof.Machine

/-- Settles O49: the delivery of the expiry to the owner, and then the wait list. -/
theorem releaseTimerExpiryReleases : Obligations.ReleaseTimerExpiryReleases := by
  refine fun i s => ⟨fun h => congrArg Host.Outcome.next (takeReleaseTimerExpiry_of_waiting h), fun h ht he hp => ?_⟩
  have hacted := (Ev.actOnExpiry_tame ((Ev.start s).on (fun s => s.expiring i h)) h).handed
  obtain ⟨t, heased, hev⟩ := Ev.actOnExpiry_eq ((Ev.start s).on (fun s => s.expiring i h)) h hp
  have released := (((Ev.start s).on (fun s => s.expiring i h)).on (fun _ => t)).fullRelease_released h.owner
  rw [← hev] at released
  have hhanded : HandedOn s.begun _ := (s.begun.expiring_leaves i h).2.2.trans hacted
  refine ⟨_, exec_releaseTimerExpiry ht he, ?_⟩
  generalize ((Ev.start s).on (fun s => s.expiring i h)).actOnExpiry h = b at *
  obtain ⟨htables, htrans, hsent, hwait, hkey, hgroups, horigin, htimer⟩ := State.expired_shares heased
  obtain ⟨hbefore, -, hroute, -, hlock, -, hborder, -, -, -, hreleased, huntimed, -⟩ := released
  simp only [Ev.on] at hbefore hborder hreleased huntimed
  obtain ⟨-, hwaiting, -⟩ := huntimed htimer
  have htimed := b.s.freeTimer_timed i
  obtain ⟨-, htrans', hsent', helem', -, -⟩ := State.shared_of_timed htimed
  have hhanded' : HandedOn s.begun (b.on (fun s => s.freeTimer i)).s := hhanded.trans (b.s.freeTimer_tame i).handed
  obtain ⟨hfree, hserved⟩ := Ev.released_freeTimer (i := i) hwaiting State.waitingOthers_route hroute
  have hwaits : t.waitingOthers h.owner = s.waitingOthers h.owner := by
    unfold State.waitingOthers
    rw [hwait]
  refine ⟨hbefore, hfree, fun e => ?_, ?_, ?_, ?_, hhanded'.bare, hhanded'.frame⟩
  · exact (congrFun helem' e) ▸ hlock e
  · exact borderSideEnds_part (borderSideEnds_congr (hsent ▸ hborder) htables hgroups htrans) htrans' hsent' (fun _ _ h => h)
  · rw [hwaits] at hserved
    exact (State.served_congr hhanded hserved : s.begun.served i (s.waitingOthers h.owner) _)
  · simp only [State.routeOffer, hkey, horigin] at hreleased
    exact hreleased

end

/-! PROOF SUPPORT. The execution of an auxiliary command (R135, R154, R160, R162, R163). -/

namespace Sys2Proof.Machine

/-! ### What an event touches that also ends requests -/

/-- What the hand-on of an event may touch, and the Request Queue beside it. -/
def State.Followed (u t : State) : Prop := HandedOn { u with requests := t.requests } t

theorem HandedOn.requests {u t : State} (h : HandedOn u t) : t.requests = u.requests := by
  rw [h.frame]
  rfl

theorem HandedOn.followed {u t : State} (h : HandedOn u t) : u.Followed t := by
  unfold State.Followed
  rw [h.requests]
  exact h

theorem HandedOn.with_requests {u t : State} (h : HandedOn u t) (q : List Request) :
    HandedOn { u with requests := q } { t with requests := q } where
  frame := by
    have e := congrArg (fun x : State => { x with requests := q }) h.frame
    exact e
  bare := h.bare
  sent := h.sent
  latches := h.latches
  lock := h.lock
  ctx := h.ctx
  ctxTimer := h.ctxTimer
  queue := h.queue
  queueOne := h.queueOne
  lost := h.lost

theorem State.Followed.refl (u : State) : u.Followed u := (HandedOn.refl u).followed

theorem State.Followed.trans {u v t : State} (h : u.Followed v) (k : v.Followed t) : u.Followed t :=
  HandedOn.trans (HandedOn.with_requests h t.requests) k

theorem State.Followed.via {u v v' t : State} (h : u.Followed v) (k : v'.Followed t) (e : v = v' := by rfl) :
    u.Followed t := h.trans (e ▸ k)

theorem State.Followed.foldl {α : Type} (f : Ev → α → Ev) (h : ∀ (b : Ev) a, b.s.Followed (f b a).s) (l : List α) (b : Ev) :
    b.s.Followed (l.foldl f b).s := by
  induction l generalizing b with
  | nil => exact .refl _
  | cons a l ih => exact (h b a).trans (ih _)

theorem State.requests_followed (s : State) (q : List Request) : s.Followed { s with requests := q } :=
  HandedOn.refl { s with requests := q }

theorem State.Followed.auxFields {u t : State} (h : u.Followed t) :
    t.auxPending = u.auxPending ∧ t.auxTimer = u.auxTimer ∧ t.auxCounter = u.auxCounter ∧ t.store = u.store ∧
    t.mode = u.mode ∧ t.blocked = u.blocked ∧ t.life = u.life ∧ t.linkC = u.linkC ∧ t.mask = u.mask ∧
    t.auxTarget = u.auxTarget := by
  rw [h.frame]
  and_intros <;> rfl

/-! ### The routes tied to a cleared BORDER element -/

theorem State.ctxOf_isSome {s : State} {r : Nat} :
    s.ctxOf r ≠ none ↔ ∃ c ∈ contextNumbers, ∃ x, s.ctx c = some x ∧ x.route = r := by
  unfold State.ctxOf
  rw [Option.ne_none_iff_isSome, List.find?_isSome]
  refine exists_congr (fun c => and_congr_right (fun _ => ?_))
  cases s.ctx c with
  | none => simp
  | some x => simp

/-- What the end of a tied route leaves to the others. -/
structure Ev.Ended (a b : Ev) (r : Nat) : Prop where
  before : b.before = a.before
  free : ((a.s.route r).state = .setting → a.s.ctxOf r ≠ none) → (b.s.route r).state = .free
  state : ∀ k, k ≠ r → (b.s.route k).state = (a.s.route k).state
  inContext : ∀ k, k ≠ r → a.s.ctxOf k ≠ none → b.s.ctxOf k ≠ none
  cleared : ∀ e, a.s.transOf e = {} → b.s.transOf e = {}
  followed : a.s.Followed b.s

theorem Ev.ended_of_released {a b : Ev} {t : State} {r : Nat} (hf : a.s.Followed t) (hctx : t.ctxOf = a.s.ctxOf)
    (hstate : ∀ k, (t.route k).state = (a.s.route k).state) (htrans : t.transOf = a.s.transOf)
    (hb : b = (a.on (fun _ => t)).fullRelease r) : Ev.Ended a b r := by
  have released := (a.on (fun _ => t)).fullRelease_released r
  rw [← hb] at released
  obtain ⟨hbefore, -, hroute, hothers, -, -, -, hcleared, ⟨hcontexts, -⟩, -, -, -, hhanded⟩ := released
  simp only [Ev.on] at hbefore hothers hcleared hcontexts hhanded
  have hc : b.s.ctxOf = t.ctxOf := by
    unfold State.ctxOf State.ctx
    rw [hcontexts]
  exact {
    before := hbefore
    free := fun _ => by rw [hroute]
    state := fun k hk => (RouteRec.sameButTimer_fields (hothers k hk)).1.trans (hstate k)
    inContext := fun k _ h => by rw [hc, hctx]; exact h
    cleared := fun e he => hcleared e (by rw [htrans]; exact he)
    followed := hf.trans hhanded.followed }

theorem Ev.withdrawOffer_cleared (ev : Ev) (o : Option Byte) (dest : Nat) (x : Reason) {e : Nat}
    (h : ev.s.transOf e = {}) : (ev.withdrawOffer o dest x).s.transOf e = {} := by
  have hsent (l : Link) (ref : Byte) : (ev.sendWithdraw l dest ref x).s.transOf e = {} := by
    have ht : (ev.sendWithdraw l dest ref x).s.transOf e = (ev.s.setTrans dest {}).transOf e := by
      rw [Ev.sendWithdraw_s]
      rfl
    rw [ht, State.transOf_setTrans]
    split
    · rfl
    · exact h
  unfold Ev.withdrawOffer
  split
  · split
    · exact hsent _ _
    · exact hsent _ _
    · exact h
  · exact h

theorem Ev.abortSetting_ended (a : Ev) (r : Nat) (hs : (a.s.route r).state = .setting) :
    Ev.Ended a (a.abortSetting r) r := by
  have hf := (a.abortSetting_tame r).handed.followed
  unfold Ev.abortSetting at hf ⊢
  cases hc : a.s.ctxOf r with
  | none =>
    exact {
      before := rfl
      free := fun h => absurd hc (h hs)
      state := fun _ _ => rfl
      inContext := fun _ _ h => h
      cleared := fun _ h => h
      followed := .refl _ }
  | some c =>
    rw [hc] at hf
    obtain ⟨x, hx, rfl⟩ := State.ctxOf_spec hc
    have failed := Ev.failCtx_failed a .cancelled (a.s.rrow x.route).start true hx
    exact {
      before := failed.before
      free := fun _ => by rw [failed.route, if_pos rfl]
      state := fun k hk => by rw [failed.route, if_neg hk]
      inContext := fun k hk h => by
        obtain ⟨d, hd, y, hy, hyr⟩ := State.ctxOf_isSome.1 h
        refine State.ctxOf_isSome.2 ⟨d, hd, y, ?_, hyr⟩
        have hne : d ≠ c := fun he => hk (by rw [he, hx] at hy; exact hyr ▸ (Option.some.inj hy) ▸ rfl)
        exact (failed.ctx d).trans ((if_neg hne).trans hy)
      cleared := fun e he => by rw [failed.trans]; exact a.withdrawOffer_cleared _ _ _ he
      followed := hf }

theorem Ev.endTied_ended (a : Ev) (r : Nat) : Ev.Ended a (a.endTied r) r := by
  unfold Ev.endTied
  split
  · next h => exact a.abortSetting_ended r h
  · exact Ev.ended_of_released (t := { a.s with requests := a.s.requests.filter (fun q => q.route != r) })
      (a.s.requests_followed _) rfl (fun _ => rfl) rfl rfl
  · obtain ⟨hframe, hroute, -, -⟩ := a.s.writeAspect_leaves r .danger
    refine Ev.ended_of_released (t := a.s.writeAspect r .danger) (a.s.writeAspect_handedOn r .danger).followed ?_
      (fun k => ?_) (State.transOf_congr (by rw [hframe])) rfl
    · rw [hframe]
      rfl
    · rw [hroute]
      split
      · next h => rw [h]
      · rfl
  · exact Ev.ended_of_released (t := a.s) (.refl _) rfl (fun _ => rfl) rfl rfl

/-- Every tied route, and every route that is FREE already, is FREE in the end (R154). -/
theorem Ev.endTied_fold (rs : List Nat) (a : Ev) :
    (rs.foldl Ev.endTied a).before = a.before ∧ a.s.Followed (rs.foldl Ev.endTied a).s ∧
    (∀ e, a.s.transOf e = {} → (rs.foldl Ev.endTied a).s.transOf e = {}) ∧
    ∀ r, r ∈ rs ∨ (a.s.route r).state = .free → ((a.s.route r).state = .setting → a.s.ctxOf r ≠ none) →
      ((rs.foldl Ev.endTied a).s.route r).state = .free := by
  induction rs generalizing a with
  | nil => exact ⟨rfl, .refl _, fun _ h => h, fun r h _ => h.resolve_left (List.not_mem_nil)⟩
  | cons q rs ih =>
    have ended := a.endTied_ended q
    obtain ⟨hbefore, hfollowed, hcleared, hfree⟩ := ih (a.endTied q)
    refine ⟨hbefore.trans ended.before, ended.followed.trans hfollowed,
      fun e he => hcleared e (ended.cleared e he), fun r hr hs => ?_⟩
    by_cases hq : r = q
    · subst hq
      have h := ended.free hs
      exact hfree r (.inr h) (fun hset => by rw [h] at hset; cases hset)
    · have hstate := ended.state r hq
      refine hfree r ?_ (fun hset => ended.inContext r hq (hs (hstate ▸ hset)))
      rw [hstate]
      exact hr.imp_left (fun hm => (List.mem_cons.1 hm).resolve_left hq)

theorem Ev.forcedBorderClear_leaves (a : Ev) (l : Link) (e : Nat) :
    (a.forcedBorderClear l e).before = a.before ∧ a.s.Followed (a.forcedBorderClear l e).s ∧
    (a.forcedBorderClear l e).s.transOf e = {} ∧
    ∀ r, r ∈ a.s.tiedRoutes l e ∨ (a.s.route r).state = .free → ((a.s.route r).state = .setting → a.s.ctxOf r ≠ none) →
      ((a.forcedBorderClear l e).s.route r).state = .free := by
  have hends := Ev.endTied_fold (a.s.tiedRoutes l e) { Ev.part a .forcedClear 0
    (fun b => b.changeTrans l e {} ((b.s.transOf e).reference.getD 0) .forcedClear none) with offers := [] }
  obtain ⟨hbefore, hfollowed, hcleared, hfree⟩ := hends
  have hset : a.s.Followed (a.s.setTrans e {}) := (a.changeTrans_tame l e {} 0 .forcedClear none).handed.followed
  have hidle : (a.s.setTrans e {}).transOf e = {} := by rw [State.transOf_setTrans, if_pos rfl]
  exact ⟨hbefore, hset.trans hfollowed, hcleared e hidle, hfree⟩

/-! ### Forced release at the Route Monitor -/

theorem Ev.forcedRelease_leaves (a : Ev) (r : Nat) :
    (a.forcedRelease r).before = a.before ∧ a.s.Followed (a.forcedRelease r).s ∧ a.s.atDanger (a.forcedRelease r).s r ∧
    (if a.s.requiredMs r .forced = 0 then (a.forcedRelease r).s.route r = {}
     else ((a.forcedRelease r).s.route r).state = .cancelling ∧ ((a.forcedRelease r).s.route r).purpose = .forced ∧
       ((a.forcedRelease r).s.route r).clearWanted = false ∧ ((a.forcedRelease r).s.route r).aspect = .danger) := by
  have hhanded := (a.forcedRelease_handedOn r).followed
  have halted := a.s.halting_halted r (fun w => { w with clearWanted := false, state := .cancelling }) (fun _ => rfl)
  have waits := (a.on (fun s => s.halting r (fun w => { w with clearWanted := false, state := .cancelling }))).timedWait_waits
    r .forced (.cancelling .forced)
  have hev : a.forcedRelease r = ((a.on (fun s => s.halting r (fun w =>
    { w with clearWanted := false, state := .cancelling }))).timedWait r .forced (.cancelling .forced)).reach r := rfl
  obtain ⟨-, -, -, -, -, hms⟩ := State.shared_of_written halted.frame
  rw [hev] at hhanded ⊢
  obtain ⟨hbefore, -, hunheld, -, -, -, -, hreleased, hwaits⟩ := waits
  generalize (Ev.timedWait _ r .forced (.cancelling .forced)) = b at *
  simp only [Ev.on] at hbefore hunheld hreleased hwaits
  rw [hms, halted.route, if_pos rfl] at hwaits
  rw [hms] at hreleased
  refine ⟨hbefore, hhanded, State.atDanger_of_unheld halted.danger hunheld, ?_⟩
  split
  · next h => exact (hreleased h).1
  · next h =>
    obtain ⟨hsame, hpurpose, -⟩ := hwaits h
    obtain ⟨hstate, -, -, hclear, -, -, -, haspect⟩ := RouteRec.sameButTimer_fields hsame
    exact ⟨hstate, hpurpose, hclear, haspect⟩

/-! ### The Confirm -/

/-- The state in which a confirmed command is executed: the Reply is sent, and nothing is pending (R160). -/
def State.confirming (s : State) (tag : Half) : State := (s.answering .auxConfirm tag .accepted).clearAux

theorem State.clearAux_reads (s : State) :
    s.clearAux.ctx = s.ctx ∧ s.clearAux.route = s.route ∧ s.clearAux.elem = s.elem ∧ s.clearAux.rrow = s.rrow ∧
    s.clearAux.erow = s.erow ∧ s.clearAux.isEntry = s.isEntry ∧ s.clearAux.transOf = s.transOf ∧
    s.clearAux.elemLink = s.elemLink ∧ s.clearAux.requiredMs = s.requiredMs ∧
    s.clearAux.deadlineAfter = s.deadlineAfter ∧ s.clearAux.ctxOf = s.ctxOf ∧
    s.clearAux.tiedRoutes = s.tiedRoutes ∧ s.clearAux.auxTarget = s.auxTarget ∧ s.clearAux.events = s.events ∧
    s.clearAux.auxPending = none ∧ s.clearAux.auxTimer = none ∧ s.clearAux.auxCounter = s.auxCounter ∧
    s.clearAux.sent = s.sent := by
  and_intros <;> rfl

theorem State.answering_aux (s : State) (q : Req) (tag : Half) (code : ReplyCode) :
    (s.answering q tag code).erow = s.erow ∧ (s.answering q tag code).isEntry = s.isEntry ∧
    (s.answering q tag code).requiredMs = s.requiredMs ∧ (s.answering q tag code).deadlineAfter = s.deadlineAfter ∧
    (s.answering q tag code).tiedRoutes = s.tiedRoutes ∧ (s.answering q tag code).auxTarget = s.auxTarget ∧
    (s.answering q tag code).events = s.events + 1 ∧ (s.answering q tag code).auxCounter = s.auxCounter := by
  and_intros <;> rfl

@[simp] theorem State.confirming_reads (s : State) (tag : Half) :
    (s.confirming tag).ctx = s.ctx ∧ (s.confirming tag).route = s.route ∧ (s.confirming tag).elem = s.elem ∧
    (s.confirming tag).rrow = s.rrow ∧ (s.confirming tag).erow = s.erow ∧ (s.confirming tag).isEntry = s.isEntry ∧
    (s.confirming tag).transOf = s.transOf ∧ (s.confirming tag).elemLink = s.elemLink ∧
    (s.confirming tag).requiredMs = s.requiredMs ∧ (s.confirming tag).deadlineAfter = s.deadlineAfter ∧
    (s.confirming tag).ctxOf = s.ctxOf ∧ (s.confirming tag).tiedRoutes = s.tiedRoutes ∧
    (s.confirming tag).events = s.events + 1 ∧ (s.confirming tag).auxPending = none ∧
    (s.confirming tag).auxTimer = none ∧ (s.confirming tag).auxCounter = s.auxCounter ∧
    (s.confirming tag).auxTarget = s.auxTarget ∧
    (s.confirming tag).sent = s.sent ++ [⟨.c, .reply 0x01 0x08 tag .accepted .none⟩] := by
  simp only [State.confirming, State.clearAux_reads, State.answering_aux, State.answering_reads, true_and]
  rfl

/-- The event in which a confirmed command is executed. -/
def Ev.confirming (s : State) (tag : Half) : Ev := ⟨s, s.confirming tag, s.linkOffers .c, []⟩

theorem Ev.auxConfirm_of_pending {s : State} {old : AuxPending} (tag : Half) (hold : s.auxPending = some old)
    (hr : s.auxRefusal old.cmd = none) : Ev.auxConfirm tag (Ev.asked s) old.cmd = (Ev.asked s).confirmed tag old := by
  unfold Ev.auxConfirm
  simp only [Ev.asked_fields, State.takenC_reads, hold, if_true, State.auxRefusal_taken, hr]

/-- The end of an executed command: it is counted, AUX is latched and the Aux Report raised (R160). -/
def Ev.counted (b : Ev) (old : AuxPending) : Ev :=
  (b.on (fun s => { s with auxCounter := s.auxCounter + 1 }.latch .aux)).auxReport old (.executed (b.s.auxCounter + 1))

theorem Ev.confirmed_eq (s : State) (tag : Half) (old : AuxPending) :
    (Ev.asked s).confirmed tag old = ((Ev.confirming s tag).executeAux old.cmd).counted old := rfl

theorem Ev.counted_fields (b : Ev) (old : AuxPending) :
    (b.counted old).before = b.before ∧ (b.counted old).s = { b.s with
      auxCounter := b.s.auxCounter + 1, latches := setLatch b.s.latches .aux } ∧
    (b.counted old).raised .aux (.aux { event := .executed (b.s.auxCounter + 1), cmd := old.cmd
                                        target := b.s.auxTarget old.cmd, tag := old.tag }) :=
  ⟨rfl, rfl, Ev.raised_raise (b.on (fun s => { s with auxCounter := s.auxCounter + 1 }.latch .aux)) .aux _ rfl⟩

/-- What the execution of an auxiliary command leaves in any case. -/
structure State.Executing (u t : State) : Prop where
  aux : t.auxPending = u.auxPending ∧ t.auxTimer = u.auxTimer ∧ t.auxCounter = u.auxCounter
  rest : t.store = u.store ∧ t.mode = u.mode ∧ t.blocked = u.blocked ∧ t.life = u.life ∧ t.linkC = u.linkC ∧
    t.mask = u.mask
  target : t.auxTarget = u.auxTarget
  sent : u.sent <+: t.sent

theorem State.Followed.executing {u t : State} (h : u.Followed t) : u.Executing t := by
  obtain ⟨h1, h2, h3, h4, h5, h6, h7, h8, h9, h10⟩ := h.auxFields
  exact ⟨⟨h1, h2, h3⟩, ⟨h4, h5, h6, h7, h8, h9⟩, h10, h.sent⟩

theorem State.modElem_executing (s : State) (e : Nat) (f : Elem → Elem) : s.Executing (s.modElem e f) :=
  ⟨⟨rfl, rfl, rfl⟩, ⟨rfl, rfl, rfl, rfl, rfl, rfl⟩, rfl, List.prefix_rfl⟩

theorem State.Executing.after_send {u t : State} {p : Port} {x : Telegram} (h : (u.send p x).Executing t) :
    u.Executing t :=
  ⟨h.aux, h.rest, h.target, (List.prefix_append _ _).trans h.sent⟩

@[simp] theorem Ev.counted_reads (b : Ev) (old : AuxPending) :
    (b.counted old).s.route = b.s.route ∧ (b.counted old).s.elem = b.s.elem ∧
    (b.counted old).s.transOf = b.s.transOf ∧ (b.counted old).s.sent = b.s.sent := ⟨rfl, rfl, rfl, rfl⟩

/-- What every confirmed command leaves, whatever it is (R160). -/
theorem Ev.counted_leaves {s : State} {tag : Half} {b : Ev} (old : AuxPending) (hb : b.before = s)
    (h : (s.confirming tag).Executing b.s) :
    (b.counted old).before = s ∧ (b.counted old).s.auxPending = none ∧ (b.counted old).s.auxTimer = none ∧
    (b.counted old).s.auxCounter = s.auxCounter + 1 ∧ (b.counted old).s.latches.getLsbD 7 = true ∧
    (b.counted old).raised .aux (.aux { event := .executed (s.auxCounter + 1), cmd := old.cmd
                                        target := s.auxTarget old.cmd, tag := old.tag }) ∧
    s.sent ++ [⟨.c, .reply 0x01 0x08 tag .accepted .none⟩] <+: (b.counted old).s.sent ∧
    ((b.counted old).s.store = s.store ∧ (b.counted old).s.mode = s.mode ∧ (b.counted old).s.blocked = s.blocked ∧
      (b.counted old).s.life = s.life ∧ (b.counted old).s.linkC = s.heardOn .c ∧ (b.counted old).s.mask = s.mask) := by
  obtain ⟨⟨hpending, htimer, hcount⟩, hrest, htarget, hsent⟩ := h
  obtain ⟨hbefore, hs, hraised⟩ := b.counted_fields old
  simp only [State.confirming_reads] at hpending htimer hcount htarget hsent
  rw [hcount, htarget] at hraised
  rw [hs, hcount]
  exact ⟨hbefore.trans hb, hpending, htimer, rfl, getLsbD_setLatch_self b.s.latches .aux, hraised, hsent, hrest⟩

theorem Ev.confirming_forcedRelease (s : State) (tag : Half) (r : Nat) (b : Ev)
    (hb : b = (Ev.confirming s tag).executeAux (.forcedRouteRelease r)) :
    b.before = s ∧ (s.confirming tag).Executing b.s ∧
    (if s.isEntry r then (b.s.elem (s.rrow r).start).proven = false else (b.s.elem (s.rrow r).start).aspect = .danger) ∧
    (if s.requiredMs r .forced = 0 then b.s.route r = {}
     else (b.s.route r).state = .cancelling ∧ (b.s.route r).purpose = .forced ∧ (b.s.route r).clearWanted = false ∧
       (b.s.route r).aspect = .danger) := by
  obtain ⟨hbefore, hfollowed, hdanger, hroute⟩ := (Ev.confirming s tag).forcedRelease_leaves r
  obtain rfl : b = (Ev.confirming s tag).forcedRelease r := hb
  generalize (Ev.confirming s tag).forcedRelease r = b at *
  unfold State.atDanger at hdanger
  simp only [Ev.confirming, State.confirming_reads] at hbefore hfollowed hdanger hroute
  exact ⟨hbefore, hfollowed.executing, hdanger, hroute⟩

theorem Ev.sectionReset_leaves (a : Ev) (e : Nat) :
    (a.sectionReset e).before = a.before ∧ a.s.Executing (a.sectionReset e).s ∧
    (a.sectionReset e).s.elem e = { a.s.elem e with restore := true, restoreSet := some a.s.events } ∧
    (a.sectionReset e).s.sent = a.s.sent ++ [⟨.f, .resetOrder (a.s.erow e).addr (a.s.erow e).slot⟩] := by
  refine ⟨rfl, (State.modElem_executing (a.s.send .f (.resetOrder (a.s.erow e).addr (a.s.erow e).slot)) e
    (fun r => { r with restore := true, restoreSet := some a.s.events })).after_send, ?_, rfl⟩
  exact (State.elem_modElem (a.s.send .f (.resetOrder (a.s.erow e).addr (a.s.erow e).slot)) e e _).trans (if_pos rfl)

theorem Ev.confirming_sectionReset (s : State) (tag : Half) (e : Nat) (b : Ev)
    (hb : b = (Ev.confirming s tag).executeAux (.sectionReset e)) :
    b.before = s ∧ (s.confirming tag).Executing b.s ∧
    b.s.elem e = { s.elem e with restore := true, restoreSet := some (s.events + 1) } ∧
    b.s.sent = s.sent ++ [⟨.c, .reply 0x01 0x08 tag .accepted .none⟩,
      ⟨.f, .resetOrder (s.erow e).addr (s.erow e).slot⟩] := by
  obtain ⟨hbefore, hkept, helem, hsent⟩ := (Ev.confirming s tag).sectionReset_leaves e
  obtain rfl : b = (Ev.confirming s tag).sectionReset e := hb
  generalize (Ev.confirming s tag).sectionReset e = b at *
  simp only [Ev.confirming, State.confirming_reads, List.append_assoc, List.singleton_append] at hbefore hkept helem hsent
  exact ⟨hbefore, hkept, helem, hsent⟩

theorem State.commandPoint_elem (s : State) (e : Nat) (side : Side) : (s.commandPoint e side).elem e = { s.elem e with
    pointCmd := side.cmd
    watch := if (s.elem e).reported = side.reported then none else some (s.deadlineAfter (10 * (s.erow e).throwLimit)) } := by
  unfold State.commandPoint
  rw [State.elem_modElem, if_pos rfl]

theorem Ev.confirming_pointMove (s : State) (tag : Half) (e : Nat) (side : Side) (b : Ev)
    (hb : b = (Ev.confirming s tag).executeAux (.auxPointMove e side)) :
    b.before = s ∧ (s.confirming tag).Executing b.s ∧
    b.s.elem e = { s.elem e with
      pointCmd := side.cmd
      watch := if (s.elem e).reported = side.reported then none
               else some (s.deadlineAfter (10 * (s.erow e).throwLimit)) } := by
  have hs : b.s = (s.confirming tag).commandPoint e side := by
    rw [hb]
    rfl
  have hkept : (s.confirming tag).Executing ((s.confirming tag).commandPoint e side) := State.modElem_executing _ e _
  have helem := (s.confirming tag).commandPoint_elem e side
  simp only [State.confirming_reads] at helem
  exact ⟨by rw [hb]; rfl, hs ▸ hkept, hs ▸ helem⟩

theorem State.mem_tiedRoutes_of_entry {s : State} {l : Link} {e r : Nat} {ref : Byte}
    (hr : (s.transOf e).reference = some ref) (hu : s.entryUnder l e ref (fun _ => true) = some r) :
    r ∈ s.tiedRoutes l e := by
  unfold State.tiedRoutes
  refine List.mem_filter.2 ⟨List.mem_of_find?_eq_some hu, ?_⟩
  simp [hr, hu]

theorem State.elemLink_of_applicable {s : State} {e : Nat} (hr : s.auxRefusal (.forcedBorderClear e) = none) :
    ∃ l, s.elemLink e = some l := by
  unfold State.auxRefusal at hr
  dsimp only at hr
  split at hr
  · cases hr
  · split at hr
    · next l hl => exact ⟨l, hl⟩
    · cases hr

theorem Ev.confirming_borderClear (s : State) (tag : Half) (e : Nat) (b : Ev)
    (hb : b = (Ev.confirming s tag).executeAux (.forcedBorderClear e))
    (hr : s.auxRefusal (.forcedBorderClear e) = none) :
    b.before = s ∧ (s.confirming tag).Executing b.s ∧ b.s.transOf e = {} ∧
    (∀ r, s.routeKind r = some .exit → (s.rrow r).dest = e → ((s.route r).state = .setting → s.ctxOf r ≠ none) →
      (b.s.route r).state = .free) ∧
    (∀ l ref r, s.elemLink e = some l → (s.transOf e).reference = some ref →
      s.entryUnder l e ref (fun _ => true) = some r → ((s.route r).state = .setting → s.ctxOf r ≠ none) →
      (b.s.route r).state = .free) := by
  obtain ⟨l, hl⟩ := State.elemLink_of_applicable hr
  have hl' : (Ev.confirming s tag).s.elemLink e = some l := by
    simp only [Ev.confirming, State.confirming_reads, hl]
  have hexec : (Ev.confirming s tag).executeAux (.forcedBorderClear e) = (Ev.confirming s tag).forcedBorderClear l e := by
    unfold Ev.executeAux
    simp only [hl']
  obtain ⟨hbefore, hfollowed, hidle, hfree⟩ := (Ev.confirming s tag).forcedBorderClear_leaves l e
  rw [← hexec, ← hb] at hbefore hfollowed hidle hfree
  simp only [Ev.confirming, State.confirming_reads] at hbefore hfollowed hfree
  refine ⟨hbefore, hfollowed.executing, hidle, fun r hk hd hset => hfree r ?_ hset, fun l' ref r hl'' href hu hset =>
    hfree r (.inl ?_) hset⟩
  · by_cases hs : (s.route r).state = .free
    · exact .inr hs
    · exact .inl (s.mem_tiedRoutes_of_exit l e r hk hd hs)
  · obtain rfl : l = l' := Option.some.inj (hl.symm.trans hl'')
    exact State.mem_tiedRoutes_of_entry href hu

end Sys2Proof.Machine

section

open Sys2Proof Sys2Proof.Machine

/-- Settles O24: the execution of each kind on the state with the Reply sent. -/
theorem auxConfirmExecutes : Obligations.AuxConfirmExecutes := by
  intro tag p s old ha hp hold hr
  have hexec : exec (.auxConfirm tag p) s = .next (((Ev.confirming s tag).executeAux old.cmd).counted old).settle := by
    rw [exec_auxConfirm_of_found tag ha hp, Ev.auxConfirm_of_pending tag hold hr, Ev.confirmed_eq]
  refine ⟨_, hexec, ?_⟩
  simp only [Ev.counted_reads]
  generalize hb : (Ev.confirming s tag).executeAux old.cmd = b
  cases hcmd : old.cmd with
  | forcedRouteRelease r =>
    obtain ⟨hbefore, hkept, hdone⟩ := Ev.confirming_forcedRelease s tag r b (hcmd ▸ hb.symm)
    obtain ⟨h1, h2, h3, h4, h5, h6, h7, h8⟩ := Ev.counted_leaves old hbefore hkept
    exact ⟨h1, h2, h3, h4, h5, hcmd ▸ h6, h7, hdone, h8⟩
  | sectionReset e =>
    obtain ⟨hbefore, hkept, hdone⟩ := Ev.confirming_sectionReset s tag e b (hcmd ▸ hb.symm)
    obtain ⟨h1, h2, h3, h4, h5, h6, h7, h8⟩ := Ev.counted_leaves old hbefore hkept
    exact ⟨h1, h2, h3, h4, h5, hcmd ▸ h6, h7, hdone, h8⟩
  | auxPointMove e side =>
    obtain ⟨hbefore, hkept, hdone⟩ := Ev.confirming_pointMove s tag e side b (hcmd ▸ hb.symm)
    obtain ⟨h1, h2, h3, h4, h5, h6, h7, h8⟩ := Ev.counted_leaves old hbefore hkept
    exact ⟨h1, h2, h3, h4, h5, hcmd ▸ h6, h7, hdone, h8⟩
  | forcedBorderClear e =>
    obtain ⟨hbefore, hkept, hdone⟩ := Ev.confirming_borderClear s tag e b (hcmd ▸ hb.symm) (hcmd ▸ hr)
    obtain ⟨h1, h2, h3, h4, h5, h6, h7, h8⟩ := Ev.counted_leaves old hbefore hkept
    exact ⟨h1, h2, h3, h4, h5, hcmd ▸ h6, h7, hdone, h8⟩

end

/-! PROOF SUPPORT. The loss of a B-link: its entry requests, then its Offers (R31, R92, R94, R152). -/

namespace Sys2Proof.Machine

/-- What the ends of entry requests and of Offers may do to the records of the part; they send nothing. -/
structure Ev.Silences (a b : Ev) : Prop where
  before : b.before = a.before
  sent : b.s.sent = a.s.sent
  followed : a.s.Followed b.s
  ctx : ∀ c, b.s.ctx c = a.s.ctx c ∨ b.s.ctx c = none
  route : ∀ k, b.s.route k = a.s.route k ∨ b.s.route k = {}
  requests : ∀ q ∈ b.s.requests, q ∈ a.s.requests
  trans : ∀ e, a.s.transOf e = {} → b.s.transOf e = {}
  raised : ∀ src x, a.raised src x → b.raised src x

theorem Ev.Silences.refl (a : Ev) : Ev.Silences a a :=
  ⟨rfl, rfl, .refl _, fun _ => .inl rfl, fun _ => .inl rfl, fun _ h => h, fun _ h => h, fun _ _ h => h⟩

theorem Ev.Silences.trans' {a b c : Ev} (h : Ev.Silences a b) (k : Ev.Silences b c) : Ev.Silences a c where
  before := k.before.trans h.before
  sent := k.sent.trans h.sent
  followed := h.followed.trans k.followed
  ctx i := (k.ctx i).elim (fun e => (h.ctx i).imp e.trans e.trans) .inr
  route i := (k.route i).elim (fun e => (h.route i).imp e.trans e.trans) .inr
  requests q hq := h.requests q (k.requests q hq)
  trans e he := k.trans e (h.trans e he)
  raised src x hx := k.raised src x (h.raised src x hx)

/-- The contexts that end in a step all hold a route of the kind that the step ends. -/
def State.endsOnly (s t : State) (p : Ctx → Prop) : Prop :=
  ∀ c, t.ctx c = s.ctx c ∨ t.ctx c = none ∧ ∃ x, s.ctx c = some x ∧ p x

theorem State.ctxOf_of_endsOnly {s t : State} {p : Ctx → Prop} {r : Nat} (h : s.endsOnly t p)
    (hp : ∀ x, p x → x.route ≠ r) : t.ctxOf r = s.ctxOf r := by
  unfold State.ctxOf
  congr 1
  funext c
  rcases h c with hc | ⟨hc, x, hx, hpx⟩
  · rw [hc]
  · rw [hc, hx]
    simpa using hp x hpx

/-- A failed context that sends nothing. -/
theorem Ev.Failed.silences {a b : Ev} {c : Nat} {x : Ctx} {reason : Reason} {named : Nat}
    (h : Ev.Failed a b a c x reason named false) : Ev.Silences a b where
  before := h.before
  sent := (h.silent rfl).1
  followed := h.handed.followed
  ctx k := by
    rw [h.ctx]
    split
    · exact .inr rfl
    · exact .inl rfl
  route k := by
    rw [h.route]
    split
    · exact .inr rfl
    · exact .inl rfl
  requests q hq := by
    rwa [h.handed.requests] at hq
  trans e he := by
    rw [h.trans]
    exact he
  raised _ _ hx := Ev.raised_mono h.offers hx

/-! ### The end of one entry request -/

/-- The entry request of a route ends with its link (R94). -/
def Ev.endEntry (ev : Ev) (r : Nat) : Ev :=
  match (ev.s.route r).state with
  | .queued => ev.cancelQueued r .borderLinkLost false
  | .setting =>
    match ev.s.ctxOf r with
    | some c => ev.failCtx c .borderLinkLost (ev.s.rrow r).start false
    | none => ev
  | _ => ev

/-- A queued request has ended. -/
def Ev.endedQueued (b : Ev) (r : Nat) : Prop := b.s.route r = {} ∧ ∀ q ∈ b.s.requests, q.route ≠ r

/-- A context has failed and released its route, with its report (R89, R90). -/
def Ev.endedSetting (b : Ev) (r c : Nat) (o : Offer) : Prop :=
  b.s.route r = {} ∧ b.s.ctx c = none ∧ b.s.ctxTimer c = none ∧ (∀ e, (b.s.elem e).lockOwner ≠ some r) ∧
  b.raised .route o.rep

theorem Ev.Silences.endedQueued {a b : Ev} {r : Nat} (h : Ev.Silences a b) (ha : a.endedQueued r) : b.endedQueued r :=
  ⟨(h.route r).elim (fun e => e.trans ha.1) id, fun q hq => ha.2 q (h.requests q hq)⟩

theorem Ev.Silences.endedSetting {a b : Ev} {r c : Nat} {o : Offer} (h : Ev.Silences a b) (ha : a.endedSetting r c o) :
    b.endedSetting r c o := by
  obtain ⟨hroute, hctx, htimer, hlock, hraised⟩ := ha
  exact ⟨(h.route r).elim (fun e => e.trans hroute) id, h.followed.ctx c hctx, h.followed.ctxTimer c htimer,
    fun e he => hlock e (h.followed.lock e r he), h.raised _ _ hraised⟩

/-- The report of a route that is refused for the loss of its link. -/
def State.lossOffer (s : State) (r named : Nat) : Offer :=
  s.routeOffer r (s.route r) (.refused .borderLinkLost (s.desig named))

/-- What the end of one entry request leaves. -/
structure Ev.EndsEntry (a b : Ev) (r : Nat) : Prop where
  silences : Ev.Silences a b
  others : ∀ k, k ≠ r → b.s.route k = a.s.route k
  transactions : b.s.transOf = a.s.transOf
  only : a.s.endsOnly b.s (fun x => x.route = r)
  queued : (a.s.route r).state = .queued → b.endedQueued r
  setting : ∀ c, (a.s.route r).state = .setting → a.s.ctxOf r = some c →
    b.endedSetting r c (a.s.lossOffer r (a.s.rrow r).start)

theorem Ev.endsEntry_refl (a : Ev) {r : Nat} (hq : (a.s.route r).state ≠ .queued)
    (hs : (a.s.route r).state = .setting → a.s.ctxOf r = none) : Ev.EndsEntry a a r :=
  ⟨.refl a, fun _ _ => rfl, rfl, fun _ => .inl rfl, fun h => absurd h hq,
    fun c h hc => absurd (hs h) (by rw [hc]; exact Option.some_ne_none c)⟩

theorem Ev.cancelQueued_endsEntry (a : Ev) (r : Nat) (hq : (a.s.route r).state = .queued) :
    Ev.EndsEntry a (a.cancelQueued r .borderLinkLost false) r := by
  rw [Ev.cancelQueued_eq]
  have hroute (k : Nat) : (a.s.unqueueing r).route k = if k = r then {} else a.s.route k :=
    State.route_setRoute { a.s with requests := a.s.requests.filter (fun q => q.route != r) } r k {}
  have hends : Ev.endedQueued ⟨a.before, a.s.unqueueing r,
      a.offers ++ [a.s.routeOffer r (a.s.route r) (.cancelled .borderLinkLost)], a.reached⟩ r := by
    refine ⟨(hroute r).trans (if_pos rfl), fun q hq => ?_⟩
    simpa using (List.mem_filter.1 hq).2
  refine ⟨⟨rfl, rfl, ?_, fun _ => .inl rfl, fun k => ?_, fun q hq => (List.mem_filter.1 hq).1, fun _ h => h,
    fun _ _ h => Ev.raised_mono (List.prefix_append _ _) h⟩, fun k hk => (hroute k).trans (if_neg hk), rfl,
    fun _ => .inl rfl, fun _ => hends, fun c h => (by rw [hq] at h; cases h)⟩
  · exact (a.s.requests_followed _).trans (State.freeRoute_tame _ r).handed.followed
  · change (a.s.unqueueing r).route k = _ ∨ (a.s.unqueueing r).route k = _
    rw [hroute]
    split
    · exact .inr rfl
    · exact .inl rfl

theorem Ev.failCtx_endsEntry (a : Ev) {c : Nat} {x : Ctx} (hs : (a.s.route x.route).state = .setting)
    (hc : a.s.ctxOf x.route = some c) (hx : a.s.ctx c = some x) (ho : x.offerRef = none) :
    Ev.EndsEntry a (a.failCtx c .borderLinkLost (a.s.rrow x.route).start false) x.route := by
  have failed := Ev.failCtx_failed a .borderLinkLost (a.s.rrow x.route).start false hx
  have hw : a.withdrawOffer x.offerRef (a.s.rrow x.route).dest .borderLinkLost = a := by rw [ho]; rfl
  rw [hw] at failed
  refine ⟨failed.silences, fun k hk => (failed.route k).trans (if_neg hk), failed.trans,
    fun k => ?_, fun h => (by rw [hs] at h; cases h), fun d _ hd => ?_⟩
  · rw [failed.ctx]
    split
    · next h => exact .inr ⟨rfl, x, h ▸ hx, rfl⟩
    · exact .inl rfl
  · obtain rfl : c = d := Option.some.inj (hc.symm.trans hd)
    exact ⟨(failed.route x.route).trans (if_pos rfl), (failed.ctx c).trans (if_pos rfl),
      (failed.ctxTimer c).trans (if_pos rfl), failed.unlocked, failed.refused⟩

theorem Ev.endEntry_ends (a : Ev) (r : Nat) (ho : ∀ c x, a.s.ctx c = some x → x.route = r → x.offerRef = none) :
    Ev.EndsEntry a (a.endEntry r) r := by
  unfold Ev.endEntry
  split
  · next h => exact a.cancelQueued_endsEntry r h
  · next h =>
    split
    · next c hc =>
      obtain ⟨x, hx, rfl⟩ := State.ctxOf_spec hc
      exact a.failCtx_endsEntry h hc hx (ho c x hx rfl)
    · next hc => exact a.endsEntry_refl (by simp [h]) (fun _ => hc)
  · next hq hs => exact a.endsEntry_refl hq (fun h => absurd h hs)

theorem State.Followed.tables {u t : State} (h : u.Followed t) :
    t.rrow = u.rrow ∧ t.desig = u.desig ∧ t.routeKeyOf = u.routeKeyOf ∧ t.routeKind = u.routeKind ∧
    t.elemLink = u.elemLink ∧ t.linkElems = u.linkElems ∧ t.onLink = u.onLink := by
  rw [h.frame]
  and_intros <;> rfl

theorem State.lossOffer_congr {s t : State} {r : Nat} (h : s.Followed t) (hr : t.route r = s.route r) :
    t.lossOffer r (t.rrow r).start = s.lossOffer r (s.rrow r).start := by
  obtain ⟨hrow, hdesig, hkey, -⟩ := h.tables
  unfold State.lossOffer State.routeOffer
  rw [hrow, hdesig, hkey, hr]

theorem State.endsOnly.trans {s t u : State} {p q : Ctx → Prop} (h : s.endsOnly t p) (k : t.endsOnly u q) :
    s.endsOnly u (fun x => p x ∨ q x) := by
  intro c
  rcases k c with hk | ⟨hk, x, hx, hq⟩
  · rcases h c with hc | ⟨hc, x, hx, hp⟩
    · exact .inl (hk.trans hc)
    · exact .inr ⟨hk.trans hc, x, hx, .inl hp⟩
  · rcases h c with hc | ⟨hc, y, hy, hp⟩
    · exact .inr ⟨hk, x, hc ▸ hx, .inr hq⟩
    · exact .inr ⟨hk, y, hy, .inl hp⟩

/-- What the ends of the entry requests of some routes leave. -/
structure Ev.EndsEntries (a b : Ev) (rs : List Nat) : Prop where
  silences : Ev.Silences a b
  others : ∀ k, k ∉ rs → b.s.route k = a.s.route k
  transactions : b.s.transOf = a.s.transOf
  only : a.s.endsOnly b.s (fun x => x.route ∈ rs)
  queued : ∀ r ∈ rs, (a.s.route r).state = .queued → b.endedQueued r
  setting : ∀ r ∈ rs, ∀ c, (a.s.route r).state = .setting → a.s.ctxOf r = some c →
    b.endedSetting r c (a.s.lossOffer r (a.s.rrow r).start)

theorem Ev.endEntry_fold (rs : List Nat) (a : Ev)
    (ho : ∀ c x, a.s.ctx c = some x → x.route ∈ rs → x.offerRef = none) :
    Ev.EndsEntries a (rs.foldl Ev.endEntry a) rs := by
  induction rs generalizing a with
  | nil =>
    exact ⟨.refl a, fun _ _ => rfl, rfl, fun _ => .inl rfl, fun r hr => absurd hr List.not_mem_nil,
      fun r hr => absurd hr List.not_mem_nil⟩
  | cons q rs ih =>
    have first := a.endEntry_ends q (fun c x hx hr => ho c x hx (hr ▸ List.mem_cons_self ..))
    have rest := ih (a.endEntry q) (fun c x hx hr => ho c x
      ((first.silences.ctx c).elim (fun e => e ▸ hx) (fun e => absurd hx (by rw [e]; exact fun h => by cases h)))
      (List.mem_cons_of_mem _ hr))
    have hkept (r : Nat) (hr : r ≠ q) : (a.endEntry q).s.ctxOf r = a.s.ctxOf r :=
      State.ctxOf_of_endsOnly first.only (fun x hx => hx.trans_ne hr.symm)
    refine ⟨first.silences.trans' rest.silences, fun k hk => ?_, rest.transactions.trans first.transactions, ?_,
      fun r hr hq => ?_, fun r hr c hs hc => ?_⟩
    · rw [List.mem_cons, not_or] at hk
      exact (rest.others k hk.2).trans (first.others k hk.1)
    · intro c
      refine (first.only.trans rest.only c).imp_right (fun ⟨h, x, hx, hp⟩ => ⟨h, x, hx, ?_⟩)
      exact List.mem_cons.2 hp
    · by_cases hrq : r = q
      · subst hrq
        exact rest.silences.endedQueued (first.queued hq)
      · exact rest.queued r ((List.mem_cons.1 hr).resolve_left hrq) (by rw [first.others r hrq]; exact hq)
    · by_cases hrq : r = q
      · subst hrq
        exact rest.silences.endedSetting (first.setting c hs hc)
      · have h := rest.setting r ((List.mem_cons.1 hr).resolve_left hrq) c (by rw [first.others r hrq]; exact hs)
          ((hkept r hrq).trans hc)
        rwa [State.lossOffer_congr first.silences.followed (first.others r hrq)] at h

/-! ### The end of one Offer -/

/-- What the end of an Offer over a BORDER element leaves. -/
structure Ev.EndsOffer (a b : Ev) (e : Nat) : Prop where
  silences : Ev.Silences a b
  entries : ∀ r, a.s.routeKind r = some .entry → b.s.route r = a.s.route r
  transactions : ∀ k, k ≠ e → b.s.transOf k = a.s.transOf k
  only : a.s.endsOnly b.s (fun x => a.s.routeKind x.route = some .exit ∧ (a.s.rrow x.route).dest = e)
  idle : (a.s.transOf e).state = .offerSent → b.s.transOf e = {} ∧
    ∀ c, a.s.ctxAwaiting e = some c → b.s.ctx c = none ∧ b.s.ctxTimer c = none

theorem Ev.endsOffer_refl (a : Ev) {e : Nat} (h : (a.s.transOf e).state ≠ .offerSent) : Ev.EndsOffer a a e :=
  ⟨.refl a, fun _ _ => rfl, fun _ _ => rfl, fun _ => .inl rfl, fun hs => absurd hs h⟩

theorem Ev.changeTrans_silences (a : Ev) (l : Link) (e : Nat) (ref : Byte) (cause : BorderCause) :
    Ev.Silences a (a.changeTrans l e {} ref cause none) where
  before := rfl
  sent := rfl
  followed := (a.changeTrans_tame l e {} ref cause none).handed.followed
  ctx _ := .inl rfl
  route _ := .inl rfl
  requests _ h := h
  trans k hk := by
    refine (State.transOf_setTrans a.s e k {}).trans ?_
    split
    · rfl
    · exact hk
  raised _ _ hx := Ev.raised_mono (List.prefix_append _ _) hx

/-- The end of an Offer whose transaction is IDLE already. -/
theorem Ev.failAwaiting_silent (a : Ev) (e : Nat) (hidle : a.s.transOf e = {}) :
    Ev.Silences a (a.failAwaiting e .borderLinkLost false) ∧
    (∀ r, a.s.routeKind r = some .entry → (a.failAwaiting e .borderLinkLost false).s.route r = a.s.route r) ∧
    (a.failAwaiting e .borderLinkLost false).s.transOf = a.s.transOf ∧
    a.s.endsOnly (a.failAwaiting e .borderLinkLost false).s
      (fun x => a.s.routeKind x.route = some .exit ∧ (a.s.rrow x.route).dest = e) ∧
    ∀ c, a.s.ctxAwaiting e = some c → (a.failAwaiting e .borderLinkLost false).s.ctx c = none ∧
      (a.failAwaiting e .borderLinkLost false).s.ctxTimer c = none := by
  unfold Ev.failAwaiting
  split
  · next c hc =>
    obtain ⟨x, hx, hk, hd⟩ := State.ctxAwaiting_spec hc
    have failed := Ev.failCtx_failed a .borderLinkLost e false hx
    rw [Ev.withdrawOffer_of_over a x.offerRef (a.s.rrow x.route).dest _ (by rw [hd, hidle]; simp)] at failed
    refine ⟨failed.silences, fun r hr => ?_, failed.trans, fun k => ?_, fun d hd => ?_⟩
    · rw [failed.route, if_neg]
      intro h
      rw [h, hk] at hr
      cases hr
    · rw [failed.ctx]
      split
      · next h => exact .inr ⟨rfl, x, h ▸ hx, hk, hd⟩
      · exact .inl rfl
    · obtain rfl : c = d := Option.some.inj (hc.symm.trans hd)
      exact ⟨(failed.ctx c).trans (if_pos rfl), (failed.ctxTimer c).trans (if_pos rfl)⟩
  · next hc =>
    exact ⟨.refl a, fun _ _ => rfl, rfl, fun _ => .inl rfl, fun c h => absurd (hc.symm.trans h) (by simp)⟩

theorem Ev.transLinkLoss_ends (a : Ev) (l : Link) (e : Nat) : Ev.EndsOffer a (a.transLinkLoss l e) e := by
  by_cases h : (a.s.transOf e).state = .offerSent
  · have hset := a.changeTrans_silences l e ((a.s.transOf e).reference.getD 0) .linkLost
    have hev : a.transLinkLoss l e = (a.changeTrans l e {} ((a.s.transOf e).reference.getD 0) .linkLost none).failAwaiting
        e .borderLinkLost false := by
      unfold Ev.transLinkLoss
      rw [h]
      rfl
    have hidle : (a.s.setTrans e {}).transOf e = {} := by rw [State.transOf_setTrans, if_pos rfl]
    obtain ⟨hsilent, hentries, htrans, honly, hfailed⟩ := (a.changeTrans l e {} ((a.s.transOf e).reference.getD 0)
      .linkLost none).failAwaiting_silent e hidle
    rw [hev]
    generalize Ev.failAwaiting _ e .borderLinkLost false = b at *
    refine ⟨hset.trans' hsilent, hentries, fun k hk => ?_, honly, fun _ => ⟨?_, hfailed⟩⟩
    · rw [htrans]
      exact (State.transOf_setTrans a.s e k {}).trans (if_neg hk)
    · rw [htrans]
      exact hidle
  · have hev : a.transLinkLoss l e = a := by
      unfold Ev.transLinkLoss
      split
      · next hs => exact absurd hs h
      · rfl
    rw [hev]
    exact a.endsOffer_refl h

theorem Ev.EndsOffer.part {a : Ev} {f : Ev → Ev} {e : Nat} (q : Sequence) (k : Nat)
    (h : Ev.EndsOffer { a with offers := [] } (f { a with offers := [] }) e) : Ev.EndsOffer a (a.part q k f) e where
  silences :=
    { before := h.silences.before, sent := h.silences.sent, followed := h.silences.followed, ctx := h.silences.ctx
      route := h.silences.route, requests := h.silences.requests, trans := h.silences.trans
      raised := fun _ _ hx => Ev.raised_mono (a.offers_kept_part q k f) hx }
  entries := h.entries
  transactions := h.transactions
  only := h.only
  idle := h.idle

theorem State.ctxAwaiting_of_endsOnly {s t : State} {e : Nat} (hk : t.routeKind = s.routeKind) (hr : t.rrow = s.rrow)
    (h : s.endsOnly t (fun x => s.routeKind x.route = some .exit → (s.rrow x.route).dest ≠ e)) :
    t.ctxAwaiting e = s.ctxAwaiting e := by
  unfold State.ctxAwaiting
  rw [hk, hr]
  congr 1
  funext c
  rcases h c with hc | ⟨hc, x, hx, hp⟩
  · rw [hc]
  · rw [hc, hx]
    simp only [Bool.false_eq, Bool.and_eq_false_imp, Bool.and_eq_true, beq_iff_eq, beq_eq_false_iff_ne]
    exact fun hk => hp hk.2

/-- What the ends of the Offers over some BORDER elements leave. -/
structure Ev.EndsOffers (a b : Ev) (es : List Nat) : Prop where
  silences : Ev.Silences a b
  entries : ∀ r, a.s.routeKind r = some .entry → b.s.route r = a.s.route r
  idle : ∀ e ∈ es, (a.s.transOf e).state = .offerSent → b.s.transOf e = {} ∧
    ∀ c, a.s.ctxAwaiting e = some c → b.s.ctx c = none ∧ b.s.ctxTimer c = none

theorem Ev.transLinkLoss_fold (l : Link) (es : List Nat) (a : Ev) (k : Nat) :
    Ev.EndsOffers a (a.inOrder .linkLoss k (es.map (fun e ev => ev.transLinkLoss l e))) es := by
  induction es generalizing a k with
  | nil => exact ⟨.refl a, fun _ _ => rfl, fun e he => absurd he List.not_mem_nil⟩
  | cons q es ih =>
    have first : Ev.EndsOffer a (a.part .linkLoss k (fun ev => ev.transLinkLoss l q)) q :=
      .part .linkLoss k (Ev.transLinkLoss_ends { a with offers := [] } l q)
    have rest := ih (a.part .linkLoss k (fun ev => ev.transLinkLoss l q)) (k + 1)
    obtain ⟨hrow, -, -, hkind, -⟩ := first.silences.followed.tables
    refine ⟨first.silences.trans' rest.silences, fun r hr => ?_, fun e he hs => ?_⟩
    · exact (rest.entries r (by rw [hkind]; exact hr)).trans (first.entries r hr)
    · by_cases heq : e = q
      · subst heq
        obtain ⟨hidle, hctx⟩ := first.idle hs
        exact ⟨rest.silences.trans e hidle, fun c hc => ⟨rest.silences.followed.ctx c (hctx c hc).1,
          rest.silences.followed.ctxTimer c (hctx c hc).2⟩⟩
      · obtain ⟨hidle, hctx⟩ := rest.idle e ((List.mem_cons.1 he).resolve_left heq)
          (by rw [first.transactions e heq]; exact hs)
        refine ⟨hidle, fun c hc => hctx c ?_⟩
        rw [State.ctxAwaiting_of_endsOnly hkind hrow]
        · exact hc
        · intro d
          exact (first.only d).imp_right (fun ⟨h, x, hx, _, hd⟩ => ⟨h, x, hx, fun _ hde => heq (hde.symm.trans hd)⟩)

/-! ### The loss of the link -/

theorem State.foldl_loseBorder (es : List Nat) (s : State) :
    (es.foldl State.loseBorder s) = { s with elems := (es.foldl State.loseBorder s).elems } ∧
    ∀ k, (es.foldl State.loseBorder s).elem k = if k ∈ es then
      { s.elem k with heard := false, nbr := .unknown, nbrEntryProven := false, nbrOnwardClear := false } else s.elem k := by
  induction es generalizing s with
  | nil => exact ⟨rfl, fun _ => by simp⟩
  | cons e es ih =>
    obtain ⟨hframe, helem⟩ := ih (s.loseBorder e)
    refine ⟨hframe, fun k => ?_⟩
    rw [List.foldl_cons, helem, State.loseBorder, State.elem_modElem]
    by_cases h1 : k ∈ es
    · by_cases h2 : k = e
      · subst h2; simp [h1]
      · simp [h1, h2]
    · by_cases h2 : k = e
      · subst h2; simp [h1]
      · simp [h1, h2]

/-- The state of a lost B-link whose BORDER elements have lost their neighbour. -/
def State.severed (s : State) (l : Link) : State := (s.linkElems l).foldl State.loseBorder (s.losing l.port)

theorem State.losing_frame (s : State) (l : Link) : ∃ x y,
    (match l with | .b1 => x | .b2 => y) = ({ state := .lost, count := 0, timer := none } : LinkRec) ∧
    s.losing l.port = { s with
      events := s.events + 1, linkB1 := x, linkB2 := y, latches := setLatch s.latches .linkFault
      lostPorts := s.lostPorts ||| (1#4 <<< portBit l.port) } := by
  cases l with
  | b1 => exact ⟨{ state := .lost }, s.linkB2, rfl, rfl⟩
  | b2 => exact ⟨s.linkB1, { state := .lost }, rfl, rfl⟩

theorem State.losing_reads (s : State) (l : Link) :
    (s.losing l.port).route = s.route ∧ (s.losing l.port).ctx = s.ctx ∧ (s.losing l.port).ctxOf = s.ctxOf ∧
    (s.losing l.port).ctxAwaiting = s.ctxAwaiting ∧ (s.losing l.port).transOf = s.transOf ∧
    (s.losing l.port).routeKind = s.routeKind ∧ (s.losing l.port).rrow = s.rrow ∧ (s.losing l.port).onLink = s.onLink ∧
    (s.losing l.port).linkElems = s.linkElems ∧ (s.losing l.port).lossOffer = s.lossOffer ∧
    (s.losing l.port).sent = s.sent ∧ (s.losing l.port).activeRoutes = s.activeRoutes ∧
    (s.losing l.port).elem = s.elem ∧ (s.losing l.port).link l.port = { state := .lost, count := 0, timer := none } ∧
    (s.losing l.port).lostPorts = s.lostPorts ||| (1#4 <<< portBit l.port) ∧
    (s.losing l.port).latches = setLatch s.latches .linkFault := by
  obtain ⟨x, y, hx, h⟩ := s.losing_frame l
  rw [h]
  exact ⟨rfl, rfl, rfl, rfl, rfl, rfl, rfl, rfl, rfl, rfl, rfl, rfl, rfl, by cases l <;> exact hx, rfl, rfl⟩

theorem State.reads_of_elems {s t : State} (h : t = { s with elems := t.elems }) :
    t.route = s.route ∧ t.ctx = s.ctx ∧ t.ctxOf = s.ctxOf ∧ t.ctxAwaiting = s.ctxAwaiting ∧ t.transOf = s.transOf ∧
    t.routeKind = s.routeKind ∧ t.rrow = s.rrow ∧ t.onLink = s.onLink ∧ t.lossOffer = s.lossOffer ∧ t.sent = s.sent ∧
    t.activeRoutes = s.activeRoutes ∧ t.link = s.link ∧ t.lostPorts = s.lostPorts ∧ t.latches = s.latches := by
  rw [h]
  and_intros <;> rfl

theorem State.linkElems_losing (s : State) (l : Link) : (s.losing l.port).linkElems = s.linkElems := by
  obtain ⟨-, -, -, -, -, -, -, -, h, -⟩ := s.losing_reads l
  exact h

/-- What the loss of a link and of its neighbours leaves to read. -/
structure State.Severed (s t : State) (l : Link) : Prop where
  route : t.route = s.route
  ctxOf : t.ctxOf = s.ctxOf
  ctx : t.ctx = s.ctx
  ctxAwaiting : t.ctxAwaiting = s.ctxAwaiting
  transOf : t.transOf = s.transOf
  routeKind : t.routeKind = s.routeKind
  rrow : t.rrow = s.rrow
  onLink : t.onLink = s.onLink
  lossOffer : t.lossOffer = s.lossOffer
  sent : t.sent = s.sent
  active : t.activeRoutes = s.activeRoutes
  link : t.link l.port = { state := .lost, count := 0, timer := none }
  lostPorts : t.lostPorts = s.lostPorts ||| (1#4 <<< portBit l.port)
  latches : t.latches.getLsbD 1 = true
  inside : ∀ e, e ∈ s.linkElems l → t.elem e =
    { s.elem e with heard := false, nbr := .unknown, nbrEntryProven := false, nbrOnwardClear := false }
  outside : ∀ e, e ∉ s.linkElems l → t.elem e = s.elem e

theorem State.severed_leaves (s : State) (l : Link) : s.Severed (s.severed l) l := by
  obtain ⟨hframe, helem⟩ := State.foldl_loseBorder (s.linkElems l) (s.losing l.port)
  obtain ⟨h1, h2, h3, h4, h5, h6, h7, h8, -, h9, h10, h11, h12, h13, h14, h15⟩ := s.losing_reads l
  obtain ⟨k1, k2, k3, k4, k5, k6, k7, k8, k9, k10, k11, k12, k13, k14⟩ := State.reads_of_elems hframe
  rw [h12] at helem
  unfold State.severed
  generalize (s.linkElems l).foldl State.loseBorder (s.losing l.port) = t at *
  exact {
    route := k1.trans h1, ctx := k2.trans h2, ctxOf := k3.trans h3, ctxAwaiting := k4.trans h4, transOf := k5.trans h5
    routeKind := k6.trans h6, rrow := k7.trans h7, onLink := k8.trans h8, lossOffer := k9.trans h9
    sent := k10.trans h10, active := k11.trans h11, link := by rw [k12, h13], lostPorts := k13.trans h14
    latches := by rw [k14, h15]; exact getLsbD_setLatch_self s.latches .linkFault
    inside := fun e he => (helem e).trans (if_pos he), outside := fun e he => (helem e).trans (if_neg he) }

/-- The entry requests of a link. -/
def State.entriesOn (s : State) (l : Link) : List Nat :=
  s.activeRoutes.filter (fun r => s.routeKind r == some .entry && s.onLink l (s.rrow r).start)

theorem State.mem_entriesOn {s : State} {l : Link} {r : Nat} (hs : (s.route r).state ≠ .free)
    (hk : s.routeKind r = some .entry) (hl : s.onLink l (s.rrow r).start = true) : r ∈ s.entriesOn l := by
  refine List.mem_filter.2 ⟨s.mem_activeRoutes r hs, ?_⟩
  simp [hk, hl]

theorem State.entry_of_mem_entriesOn {s : State} {l : Link} {r : Nat} (h : r ∈ s.entriesOn l) :
    s.routeKind r = some .entry := by
  have hp := (List.mem_filter.1 h).2
  simp only [Bool.and_eq_true, beq_iff_eq] at hp
  exact hp.1

theorem Ev.lost_borderLoss (s : State) (l : Link) : (Ev.lost s l.port).borderLoss l =
    ((((s.severed l).entriesOn l).foldl Ev.endEntry
      ⟨s, s.severed l, [⟨.link, .fault (linkReport l.port .lost)⟩], []⟩).inOrder .linkLoss 0
      ((s.linkElems l).map (fun e ev => ev.transLinkLoss l e))) := by
  have h : (Ev.lost s l.port).borderLoss l =
      (((((Ev.lost s l.port).on (fun u => (u.linkElems l).foldl State.loseBorder u)).s.entriesOn l).foldl Ev.endEntry
        ((Ev.lost s l.port).on (fun u => (u.linkElems l).foldl State.loseBorder u))).inOrder .linkLoss 0
        (((Ev.lost s l.port).s.linkElems l).map (fun e ev => ev.transLinkLoss l e))) := rfl
  have helems : (Ev.lost s l.port).s.linkElems l = s.linkElems l :=
    congrFun (s.linkElems_losing l) l
  rw [h, helems]
  have hsevered : (Ev.lost s l.port).on (fun u => (u.linkElems l).foldl State.loseBorder u) =
      ⟨s, s.severed l, [⟨.link, .fault (linkReport l.port .lost)⟩], []⟩ := by
    change Ev.mk s ((s.losing l.port).linkElems l |>.foldl State.loseBorder (s.losing l.port)) _ _ = _
    rw [s.linkElems_losing l]
    rfl
  rw [hsevered]

theorem exec_linkTimerExpiry_of_lost {s : State} {l : Link} (hp : s.passes (s.link l.port).timer = true)
    (hu : (s.link l.port).state = .up) :
    exec (.linkTimerExpiry l.port) s = .next ((Ev.lost s l.port).borderLoss l).settle := by
  refine congrArg Host.Outcome.next ((takeLinkTimerExpiry_of_up hp hu).trans ?_)
  rw [Ev.linkLost_start]
  cases l <;> rfl

theorem State.Followed.links {u t : State} (h : u.Followed t) : t.link = u.link ∧ t.lostPorts = u.lostPorts := by
  rw [h.frame]
  exact ⟨rfl, rfl⟩

/-- What the loss of a link leaves of its entry requests and Offers. -/
structure Ev.LinkEnded (s : State) (l : Link) (b : Ev) : Prop where
  silences : Ev.Silences ⟨s, s.severed l, [⟨.link, .fault (linkReport l.port .lost)⟩], []⟩ b
  offers : ∀ e ∈ s.linkElems l, (s.transOf e).state = .offerSent →
    b.s.transOf e = {} ∧ ∀ c, s.ctxAwaiting e = some c → b.s.ctx c = none ∧ b.s.ctxTimer c = none
  queued : ∀ r, s.routeKind r = some .entry → s.onLink l (s.rrow r).start = true → (s.route r).state = .queued →
    b.endedQueued r
  setting : ∀ r c, s.routeKind r = some .entry → s.onLink l (s.rrow r).start = true → (s.route r).state = .setting →
    s.ctxOf r = some c → b.endedSetting r c (s.lossOffer r (s.rrow r).start)

theorem Ev.borderLoss_ended (s : State) (l : Link)
    (ho : ∀ c x, s.ctx c = some x → x.offerRef ≠ none → s.routeKind x.route = some .exit) :
    Ev.LinkEnded s l ((Ev.lost s l.port).borderLoss l) := by
  have sev := s.severed_leaves l
  rw [Ev.lost_borderLoss]
  have entries := Ev.endEntry_fold ((s.severed l).entriesOn l)
    ⟨s, s.severed l, [⟨.link, .fault (linkReport l.port .lost)⟩], []⟩ (fun c x hx hm => by
      have hk := State.entry_of_mem_entriesOn hm
      rw [sev.routeKind] at hk
      by_contra hne
      rw [ho c x (by rw [← sev.ctx]; exact hx) hne] at hk
      cases hk)
  have offers := Ev.transLinkLoss_fold l (s.linkElems l) (((s.severed l).entriesOn l).foldl Ev.endEntry
    ⟨s, s.severed l, [⟨.link, .fault (linkReport l.port .lost)⟩], []⟩) 0
  have hmem (r : Nat) (hk : s.routeKind r = some .entry) (hl : s.onLink l (s.rrow r).start = true)
      (hs : (s.route r).state ≠ .free) : r ∈ (s.severed l).entriesOn l :=
    State.mem_entriesOn (by rw [sev.route]; exact hs) (by rw [sev.routeKind]; exact hk)
      (by rw [sev.onLink, sev.rrow]; exact hl)
  generalize Ev.inOrder _ .linkLoss 0 _ = b at *
  generalize hv : ((s.severed l).entriesOn l).foldl Ev.endEntry _ = v at *
  obtain ⟨esilent, -, etrans, eonly, equeued, esetting⟩ := entries
  obtain ⟨hrow, -, -, hkind, -⟩ := esilent.followed.tables
  refine ⟨esilent.trans' offers.silences, fun e he hs => ?_, fun r hk hl hs => ?_, fun r c hk hl hs hc => ?_⟩
  · obtain ⟨hidle, hctx⟩ := offers.idle e he (by rw [etrans]; exact (congrFun sev.transOf e).symm ▸ hs)
    refine ⟨hidle, fun c hc => hctx c ?_⟩
    rw [State.ctxAwaiting_of_endsOnly hkind hrow]
    · rw [sev.ctxAwaiting]
      exact hc
    · intro d
      refine (eonly d).imp_right (fun ⟨h, x, hx, hm⟩ => ⟨h, x, hx, fun hk => ?_⟩)
      exact absurd ((State.entry_of_mem_entriesOn hm).symm.trans hk) (by simp)
  · exact offers.silences.endedQueued (equeued r (hmem r hk hl (by simp [hs])) (by rw [sev.route]; exact hs))
  · have h := esetting r (hmem r hk hl (by simp [hs])) c (by rw [sev.route]; exact hs) (by rw [sev.ctxOf]; exact hc)
    rw [sev.lossOffer, sev.rrow] at h
    exact offers.silences.endedSetting h

end Sys2Proof.Machine

section

open Sys2Proof Sys2Proof.Machine

/-- Settles O48: the elements lose their neighbour, the entry requests end, and then the Offers. -/
theorem borderLinkLossEndsOffers : Obligations.BorderLinkLossEndsOffers := by
  intro l s hp hu ho
  have sev := s.severed_leaves l
  obtain ⟨hsilent, hoffers, hqueued, hsetting⟩ := Ev.borderLoss_ended s l ho
  refine ⟨_, exec_linkTimerExpiry_of_lost hp hu, ?_⟩
  generalize (Ev.lost s l.port).borderLoss l = b at *
  obtain ⟨hlink, hports⟩ := hsilent.followed.links
  refine ⟨hsilent.before, hsilent.sent.trans sev.sent, by rw [hlink]; exact sev.link, hports.trans sev.lostPorts,
    hsilent.followed.latches 1 sev.latches, hsilent.raised _ _ ⟨_, List.mem_singleton_self _, rfl, rfl⟩,
    fun e he => ?_, fun e he => ?_, hoffers, hqueued, hsetting⟩
  · rw [hsilent.followed.bare]
    exact congrArg Elem.bare (sev.inside e he)
  · rw [hsilent.followed.bare]
    exact congrArg Elem.bare (sev.outside e he)

end

/-! PROOF SUPPORT. Entry into SAFE_STOP (R95, R120, R187, R188). -/

namespace Sys2Proof.Machine

/-! ### The Setting Engine -/

theorem Ev.inOrder_append (a : Ev) (q : Sequence) (k : Nat) (fs gs : List (Ev → Ev)) :
    a.inOrder q k (fs ++ gs) = (a.inOrder q k fs).inOrder q (k + fs.length) gs := by
  induction fs generalizing a k with
  | nil => rfl
  | cons f fs ih =>
    rw [List.cons_append, Ev.inOrder, ih, Ev.inOrder, List.length_cons, Nat.add_assoc, Nat.add_comm 1]

/-- A queued request is cancelled (R95). -/
def Ev.cancelForStop (q : Request) (a : Ev) : Ev := a.cancelQueued q.route .safeStop true

/-- An ACTIVE context fails (R95). -/
def Ev.failForStop (c : Nat) (a : Ev) : Ev :=
  match a.s.ctx c with
  | some x => a.failCtx c .safeStop (a.s.rrow x.route).start true
  | none => a

theorem Ev.settingSafeStop_eq (a : Ev) : a.settingSafeStop =
    (a.inOrder .setting 0 (a.s.requests.map Ev.cancelForStop)).inOrder .setting (0 + a.s.requests.length)
      (contextNumbers.map Ev.failForStop) := by
  have h := a.inOrder_append .setting 0 (a.s.requests.map Ev.cancelForStop) (contextNumbers.map Ev.failForStop)
  rw [List.length_map] at h
  exact h

theorem Ev.cancelForStop_leaves (q : Request) (a : Ev) : a.s.Followed (a.cancelForStop q).s ∧
    (a.cancelForStop q).s.requests = a.s.requests.filter (fun p => p.route != q.route) := by
  have hcancelled : a.s.Followed (a.cancelQueued q.route .safeStop false).s :=
    (a.s.requests_followed _).trans (State.freeRoute_tame _ q.route).handed.followed
  have hdecline := (a.cancelQueued q.route .safeStop false).declineOrigin_handedOn q.route (a.s.route q.route).origin
    .safeStop
  unfold Ev.cancelForStop
  rw [Ev.cancelQueued_declining]
  exact ⟨hcancelled.trans hdecline.followed, hdecline.requests⟩

theorem Ev.cancelForStop_all (qs : List Request) (a : Ev) (k : Nat) :
    a.s.Followed (a.inOrder .setting k (qs.map Ev.cancelForStop)).s ∧
    (a.inOrder .setting k (qs.map Ev.cancelForStop)).s.requests =
      a.s.requests.filter (fun p => qs.all (fun q => p.route != q.route)) := by
  induction qs generalizing a k with
  | nil => exact ⟨.refl _, (List.filter_eq_self.2 (fun _ _ => rfl)).symm⟩
  | cons q qs ih =>
    obtain ⟨hf, hr⟩ := Ev.cancelForStop_leaves q { a with offers := [] }
    obtain ⟨gf, gr⟩ := ih (a.part .setting k (Ev.cancelForStop q)) (k + 1)
    have hr' : (a.part .setting k (Ev.cancelForStop q)).s.requests = a.s.requests.filter (fun p => p.route != q.route) := hr
    refine ⟨hf.trans gf, gr.trans ?_⟩
    rw [hr', List.filter_filter]
    refine List.filter_congr (fun p _ => ?_)
    rw [List.all_cons, Bool.and_comm]

theorem Ev.failForStop_handedOn (c : Nat) (a : Ev) : HandedOn a.s (a.failForStop c).s := by
  unfold Ev.failForStop
  split
  · exact a.failCtx_handedOn _ _ _ _
  · exact .refl _

theorem Ev.failForStop_free (c : Nat) (a : Ev) : (a.failForStop c).s.ctx c = none := by
  unfold Ev.failForStop
  split
  · next x hx => exact ((Ev.failCtx_failed a .safeStop (a.s.rrow x.route).start true hx).ctx c).trans (if_pos rfl)
  · next h => exact h

theorem Ev.failForStop_all (cs : List Nat) (a : Ev) (k : Nat) :
    HandedOn a.s (a.inOrder .setting k (cs.map Ev.failForStop)).s ∧
    ∀ c ∈ cs, (a.inOrder .setting k (cs.map Ev.failForStop)).s.ctx c = none := by
  induction cs generalizing a k with
  | nil => exact ⟨.refl _, fun c hc => absurd hc List.not_mem_nil⟩
  | cons d cs ih =>
    have hd := Ev.failForStop_handedOn d { a with offers := [] }
    have hfree := Ev.failForStop_free d { a with offers := [] }
    obtain ⟨h, hcs⟩ := ih (a.part .setting k (Ev.failForStop d)) (k + 1)
    refine ⟨hd.trans h, fun c hc => ?_⟩
    rcases List.mem_cons.1 hc with rfl | hc
    · exact h.ctx c hfree
    · exact hcs c hc

/-- The Setting Engine at rest: no request waits, and every context is FREE (R95). -/
theorem Ev.settingSafeStop_ends (a : Ev) : a.s.Followed a.settingSafeStop.s ∧ a.settingSafeStop.s.requests = [] ∧
    ∀ c, c < 4 → a.settingSafeStop.s.ctx c = none := by
  obtain ⟨hf, hr⟩ := Ev.cancelForStop_all a.s.requests a 0
  rw [Ev.settingSafeStop_eq]
  generalize a.inOrder .setting 0 (a.s.requests.map Ev.cancelForStop) = v at *
  obtain ⟨hh, hc⟩ := Ev.failForStop_all contextNumbers v (0 + a.s.requests.length)
  refine ⟨hf.trans hh.followed, ?_, fun c hlt => hc c (mem_contextNumbers.2 hlt)⟩
  rw [hh.requests, hr]
  refine List.filter_eq_nil_iff.2 (fun p hp hall => ?_)
  simpa using List.all_eq_true.1 hall p hp

/-! ### The Route Monitor -/

/-- A route at the entry into SAFE_STOP (R120). -/
def Ev.stopRoute (a : Ev) (r : Nat) : Ev :=
  match (a.s.route r).state with
  | .cleared => a.revert r (a.s.rrow r).start
  | .locked => a.on (fun s => s.modRoute r (fun w => { w with clearWanted := false }))
  | _ => a

theorem Ev.revert_state (a : Ev) (r e k : Nat) :
    ((a.revert r e).s.route k).state = if k = r then .locked else (a.s.route k).state := by
  have h : (a.revert r e).s.route k = ((a.toDanger r).s.modRoute r (fun w =>
    { w with state := .locked, clearWanted := false })).route k := rfl
  rw [h, State.route_modRoute]
  split
  · rfl
  · exact a.toDanger_state r k

theorem Ev.stopRoute_leaves (a : Ev) (r : Nat) : HandedOn a.s (a.stopRoute r).s ∧
    ((a.stopRoute r).s.route r).state ≠ .cleared ∧
    ∀ k, k ≠ r → ((a.stopRoute r).s.route k).state = (a.s.route k).state := by
  unfold Ev.stopRoute
  split
  · refine ⟨a.revert_handedOn _ _, ?_, fun k hk => (a.revert_state r _ k).trans (if_neg hk)⟩
    rw [Ev.revert_state, if_pos rfl]
    simp
  · next h =>
    have hstate (k : Nat) := State.modRoute_state a.s r (fun w => { w with clearWanted := false }) k
    refine ⟨a.modRoute_handedOn r _, ?_, fun k _ => hstate k⟩
    change ((a.s.modRoute r (fun w => { w with clearWanted := false })).route r).state ≠ .cleared
    rw [hstate, h]
    simp
  · next h _ => exact ⟨.refl _, h, fun _ _ => rfl⟩

theorem Ev.stopRoute_fold (rs : List Nat) (a : Ev) : HandedOn a.s (rs.foldl Ev.stopRoute a).s ∧
    ∀ r, r ∈ rs ∨ (a.s.route r).state ≠ .cleared → ((rs.foldl Ev.stopRoute a).s.route r).state ≠ .cleared := by
  induction rs generalizing a with
  | nil => exact ⟨.refl _, fun r h => h.resolve_left List.not_mem_nil⟩
  | cons q rs ih =>
    obtain ⟨hh, hq, hothers⟩ := a.stopRoute_leaves q
    obtain ⟨gh, gr⟩ := ih (a.stopRoute q)
    refine ⟨hh.trans gh, fun r hr => gr r ?_⟩
    by_cases h : r = q
    · exact .inr (h ▸ hq)
    · rw [hothers r h]
      exact hr.imp_left (fun hm => (List.mem_cons.1 hm).resolve_left h)

theorem Ev.monitorSafeStop_ends (a : Ev) : HandedOn a.s a.monitorSafeStop.s ∧
    ∀ r, (a.monitorSafeStop.s.route r).state ≠ .cleared := by
  obtain ⟨h, hr⟩ := Ev.stopRoute_fold a.s.activeRoutes a
  refine ⟨h, fun r => hr r ?_⟩
  by_cases hf : (a.s.route r).state = .free
  · exact .inr (by rw [hf]; simp)
  · exact .inl (a.s.mem_activeRoutes r hf)

/-! ### The entry into SAFE_STOP -/

/-- A part that has stopped but for its auxiliary command. -/
structure State.Stopped (u y : State) : Prop where
  followed : u.stopping.Followed y
  requests : y.requests = []
  contexts : ∀ c, c < 4 → y.ctx c = none
  cleared : ∀ r, (y.route r).state ≠ .cleared

theorem Ev.enterSafeStop_stops (a : Ev) : ∃ y, a.s.Stopped y ∧ a.enterSafeStop.s = y.withoutAux := by
  obtain ⟨os, hos⟩ := a.enterSafeStop_eq
  have hset := Ev.settingSafeStop_ends { (⟨a.before, a.s.stopping, os, a.reached⟩ : Ev) with offers := [] }
  have hmon := Ev.monitorSafeStop_ends { (⟨a.before, a.s.stopping, os, a.reached⟩ : Ev).part .safeStop 1
    Ev.settingSafeStop with offers := [] }
  obtain ⟨ps, hps⟩ := Ev.endAux_eq { ((⟨a.before, a.s.stopping, os, a.reached⟩ : Ev).part .safeStop 1
    Ev.settingSafeStop).part .safeStop 2 Ev.monitorSafeStop with offers := [] } (.discarded .modeChange)
  obtain ⟨hfollowed, hrequests, hfree⟩ := hset
  obtain ⟨hhanded, hcleared⟩ := hmon
  refine ⟨_, ⟨hfollowed.trans hhanded.followed, hhanded.requests.trans hrequests,
    fun c hc => hhanded.ctx c (hfree c hc), hcleared⟩, ?_⟩
  have hend := congrArg Ev.s hps
  rw [hos]
  exact hend

theorem State.Followed.stopped_frame {s y t : State} (h : s.stopping.Followed y) (hr : y.requests = [])
    (ht : HandedOn y.withoutAux t) : t = { s.withRoutesOf t with
      mode := .safeStop, safeN := false, startupDeadline := none, requests := [], auxPending := none
      auxTimer := if s.auxPending = none then s.auxTimer else none } := by
  have hy := h.frame
  have k := ht.frame
  rw [hr] at hy
  rw [hy] at k
  exact k

/-- The event of a mismatch in the background check (R187). -/
def Ev.mismatch (s : State) : Ev := ⟨s, s.begun.latch .tableFault,
  [⟨.route, .fault { cls := .tableFault, designation := 0, port := none, route := none, cause := 4 }⟩], []⟩

theorem takeBackgroundCheck_of_mismatch {s : State} (ha : s.atTick = true) (ht : s.tick % 6000 = 0)
    (hm : s.mode ≠ .maintenance) (hc : tableCrc s.store ≠ s.storedCrc) :
    takeBackgroundCheck s = (if s.mode = .startup ∨ s.mode = .operational then (Ev.mismatch s).enterSafeStop
      else Ev.mismatch s).settle := by
  unfold takeBackgroundCheck
  rw [if_pos ⟨ha, ht, hm⟩, if_neg hc]
  rfl

theorem takeBackgroundCheck_of_still {s : State}
    (h : ¬ (s.atTick = true ∧ s.tick % 6000 = 0 ∧ s.mode ≠ .maintenance) ∨ tableCrc s.store = s.storedCrc) :
    takeBackgroundCheck s = s := by
  unfold takeBackgroundCheck
  rcases h with h | h
  · exact if_neg h
  · rw [if_pos h, ite_self]

end Sys2Proof.Machine

section

open Sys2Proof Sys2Proof.Machine

/-- Settles O52: the mode, the Setting Engine, the Route Monitor and the auxiliary command, in this order. -/
theorem backgroundCheckEntersSafeStop : Obligations.BackgroundCheckEntersSafeStop := by
  refine fun s => ⟨fun h => congrArg Host.Outcome.next (takeBackgroundCheck_of_still h), fun ha ht hc => ⟨fun hm => ?_,
    fun hm => ?_⟩⟩
  · refine congrArg Host.Outcome.next ((takeBackgroundCheck_of_mismatch ha ht (by simp [hm]) hc).trans ?_)
    rw [if_neg (by simp [hm])]
    exact (s.alike_begun.trans (State.alike_latch _ _)).settle _
  · refine ⟨_, congrArg Host.Outcome.next (takeBackgroundCheck_of_mismatch ha ht (by rcases hm with h | h <;> simp [h]) hc),
      ?_⟩
    rw [if_pos hm]
    obtain ⟨y, stopped, hs⟩ := (Ev.mismatch s).enterSafeStop_stops
    have hsettle := (Ev.mismatch s).enterSafeStop.settle_handedOn
    have hkept := (Ev.mismatch s).enterSafeStop.settle_tame
    rw [hs] at hsettle hkept
    generalize (Ev.mismatch s).enterSafeStop.settle = t at *
    have hmode : y.withoutAux.mode = .safeStop := by
      change y.mode = .safeStop
      rw [stopped.followed.frame]
      rfl
    have hframe := stopped.followed.stopped_frame stopped.requests hsettle
    have hlatch : y.latches.getLsbD 4 = true :=
      stopped.followed.latches 4 (getLsbD_setLatch_self s.latches .tableFault)
    refine ⟨by rw [hframe], by rw [hframe], hsettle.latches 4 hlatch, by rw [hframe], by rw [hframe],
      fun c h => hsettle.ctx c (stopped.contexts c h), fun r h => stopped.cleared r (hkept.cleared (by rw [hmode]; simp) r h),
      by rw [hframe], fun e => (hsettle.bare e).trans (stopped.followed.bare e), hframe⟩

end

/-! PROOF SUPPORT. The completion of a context (R87, R88). -/

namespace Sys2Proof.Machine

/-- The state of a context's completion before its Accept (R87). -/
def State.completing (s : State) (c r : Nat) : State :=
  (s.freeCtx c).modRoute r (fun w => { w with state := .locked, context := none, clearWanted := true })

theorem State.completing_leaves (s : State) (c r : Nat) :
    s.completing c r = { s with
      contexts := (s.completing c r).contexts, ctxTimers := (s.completing c r).ctxTimers
      routes := (s.completing c r).routes } ∧
    (s.completing c r).ctx c = none ∧ (s.completing c r).ctxTimer c = none ∧
    ∀ k, (s.completing c r).route k = if k = r then { s.route r with state := .locked, context := none, clearWanted := true }
      else s.route k := by
  refine ⟨rfl, ?_, ?_, fun k => State.route_modRoute (s.freeCtx c) r k _⟩
  · change (s.freeCtx c).ctx c = none
    unfold State.freeCtx
    change (s.setCtx c none).ctx c = none
    rw [State.ctx_setCtx, if_pos rfl]
  · change (s.freeCtx c).ctxTimer c = none
    unfold State.freeCtx
    rw [State.ctxTimer_setCtxTimer, if_pos rfl]

/-- The Accept of a completed entry request (R88). -/
def Ev.accepting (ev : Ev) (r : Nat) : Ev :=
  match ev.s.isEntry r, (ev.s.route r).origin with
  | true, some (.neighbour l ref) => ev.sendAccept l (ev.s.rrow r).start ref
  | _, _ => ev

theorem Ev.completeCtx_eq {ev : Ev} {c : Nat} {x : Ctx} (hx : ev.s.ctx c = some x) : ev.completeCtx c =
    (((ev.on (fun s => s.completing c x.route)).routeEvent x.route .locked).reach x.route).accepting x.route := by
  unfold Ev.completeCtx
  rw [hx]
  rfl

theorem Ev.accepting_of_neighbour {ev : Ev} {r : Nat} {l : Link} {ref : Byte} (he : ev.s.isEntry r = true)
    (ho : (ev.s.route r).origin = some (.neighbour l ref)) :
    ev.accepting r = ev.sendAccept l (ev.s.rrow r).start ref := by
  unfold Ev.accepting
  rw [he, ho]

theorem Ev.accepting_of_other {ev : Ev} {r : Nat}
    (h : ev.s.isEntry r = false ∨ ∀ l ref, (ev.s.route r).origin ≠ some (.neighbour l ref)) : ev.accepting r = ev := by
  unfold Ev.accepting
  split
  · next l ref he ho => exact absurd ho ((h.resolve_left (by simp [he])) l ref)
  · rfl

/-- The Accept of an entry request, or nothing (R88). -/
def Ev.accepts (a b : Ev) (r : Nat) : Prop :=
  let e := (a.s.rrow r).start
  (∀ l ref, a.s.isEntry r = true → (a.s.route r).origin = some (.neighbour l ref) →
    let tx := plainTx .accept (a.s.pointByte e) ref 0
    b.s.transOf e = { state := .inHeld, reference := some ref, lastSent := some tx } ∧
    b.s.sent = a.s.sent ++ [⟨l.port, .transaction tx⟩] ∧
    b.raised (.border l) (.border
      { designation := a.s.desig e, link := l, point := a.s.pointByte e, before := some (a.s.transOf e).state,
        after := some .inHeld, reference := ref, cause := .sent .accept, reason := none })) ∧
  (a.s.isEntry r = false ∨ (∀ l ref, (a.s.route r).origin ≠ some (.neighbour l ref)) →
    b.s.trans = a.s.trans ∧ b.s.sent = a.s.sent)

theorem Ev.accepting_leaves (ev : Ev) (r : Nat) : Ev.accepts ev (ev.accepting r) r ∧
    (ev.accepting r).before = ev.before ∧ (ev.accepting r).reached = ev.reached ∧
    (ev.accepting r).s = { ev.s with trans := (ev.accepting r).s.trans, sent := (ev.accepting r).s.sent } := by
  refine ⟨⟨fun l ref he ho => ?_, fun h => ?_⟩, ?_⟩
  · rw [Ev.accepting_of_neighbour he ho]
    refine ⟨?_, rfl, Ev.raised_changeTrans _ l _ _ _ _ _⟩
    have h := State.transOf_setTrans (ev.sendBorder l (plainTx .accept (ev.s.pointByte (ev.s.rrow r).start) ref 0)).s
      (ev.s.rrow r).start (ev.s.rrow r).start { state := .inHeld, reference := some ref
                                                lastSent := some (plainTx .accept (ev.s.pointByte (ev.s.rrow r).start) ref 0) }
    rw [if_pos rfl] at h
    exact h
  · rw [Ev.accepting_of_other h]
    exact ⟨rfl, rfl⟩
  · unfold Ev.accepting
    split
    · exact ⟨rfl, rfl, rfl⟩
    · exact ⟨rfl, rfl, rfl⟩

/-- What the completion of a context leaves (R87, R88). -/
structure Ev.Completed (a b : Ev) (c : Nat) (x : Ctx) : Prop where
  before : b.before = a.before
  ctx : b.s.ctx c = none
  ctxTimer : b.s.ctxTimer c = none
  reached : x.route ∈ b.reached
  route : ∀ k, b.s.route k = if k = x.route then
    { a.s.route x.route with state := .locked, context := none, clearWanted := true } else a.s.route k
  accepts : Ev.accepts a b x.route
  elem : b.s.elem = a.s.elem
  requests : b.s.requests = a.s.requests

theorem State.shared_of_completing {s t : State} (h : t = { s with
      contexts := t.contexts, ctxTimers := t.ctxTimers, routes := t.routes }) :
    t.rrow = s.rrow ∧ t.isEntry = s.isEntry ∧ t.pointByte = s.pointByte ∧ t.desig = s.desig ∧ t.transOf = s.transOf ∧
    t.trans = s.trans ∧ t.sent = s.sent ∧ t.elem = s.elem ∧ t.requests = s.requests := by
  rw [h]
  exact ⟨rfl, rfl, rfl, rfl, rfl, rfl, rfl, rfl, rfl⟩

theorem State.shared_of_accepting {s t : State} (h : t = { s with trans := t.trans, sent := t.sent }) :
    t.ctx = s.ctx ∧ t.ctxTimer = s.ctxTimer ∧ t.route = s.route ∧ t.elem = s.elem ∧ t.requests = s.requests := by
  rw [h]
  exact ⟨rfl, rfl, rfl, rfl, rfl⟩

theorem Ev.completeCtx_completed {a : Ev} {c : Nat} {x : Ctx} (hx : a.s.ctx c = some x) :
    Ev.Completed a (a.completeCtx c) c x := by
  obtain ⟨hframe, hctx, htimer, hroute⟩ := a.s.completing_leaves c x.route
  obtain ⟨haccepts, hbefore, hreached, hs⟩ := Ev.accepting_leaves
    (((a.on (fun s => s.completing c x.route)).routeEvent x.route .locked).reach x.route) x.route
  rw [Ev.completeCtx_eq hx]
  generalize Ev.accepting _ x.route = b at *
  unfold Ev.accepts at haccepts
  simp only [Ev.reach_fields, Ev.routeEvent_s, Ev.on_fields] at hbefore hs hreached haccepts
  generalize a.s.completing c x.route = t at *
  obtain ⟨h1, h2, h3, h4, h5, h6, h7, h8, h9⟩ := State.shared_of_completing hframe
  obtain ⟨k1, k2, k3, k4, k5⟩ := State.shared_of_accepting hs
  have horigin : (t.route x.route).origin = (a.s.route x.route).origin := by rw [hroute, if_pos rfl]
  rw [h1, h2, h3, h4, h5, h6, h7, horigin] at haccepts
  exact {
    before := hbefore
    ctx := by rw [k1, hctx]
    ctxTimer := by rw [k2, htimer]
    reached := by rw [hreached]; exact List.mem_cons_self ..
    route := fun k => by rw [k3, hroute]
    accepts := haccepts
    elem := k4.trans h8
    requests := k5.trans h9 }

theorem Ev.completeIfDone_of_done {a : Ev} {c : Nat} {x : Ctx} (hx : a.s.ctx c = some x) (ha : x.awaited = [])
    (hr : x.reply = false) : a.completeIfDone c = a.completeCtx c := by
  unfold Ev.completeIfDone
  rw [hx]
  exact if_pos (by rw [ha, hr]; rfl)

theorem Ev.completeIfDone_of_waiting {a : Ev} {c : Nat} {x : Ctx} (hx : a.s.ctx c = some x)
    (h : x.awaited ≠ [] ∨ x.reply = true) : a.completeIfDone c = a := by
  unfold Ev.completeIfDone
  rw [hx]
  refine if_neg (fun hd => ?_)
  rw [Bool.and_eq_true, List.isEmpty_iff, Bool.not_eq_true'] at hd
  rcases h with h | h
  · exact h hd.1
  · rw [h] at hd
    cases hd.2

end Sys2Proof.Machine

section

open Sys2Proof Sys2Proof.Machine

theorem completedEntryIsAccepted : Claims.CompletedEntryIsAccepted := by
  intro ev c x hx ha hr
  have completed := Ev.completeCtx_completed hx
  rw [← Ev.completeIfDone_of_done hx ha hr] at completed
  obtain ⟨haccept, hsilent⟩ := completed.accepts
  refine ⟨completed.ctx, completed.ctxTimer, completed.reached, (completed.route x.route).trans (if_pos rfl),
    fun l ref he ho => ?_, hsilent⟩
  obtain ⟨htrans, hsent, -⟩ := haccept l ref he ho
  exact ⟨htrans, hsent⟩

end

/-! PROOF SUPPORT. A reservation that passes: locks, claims and commands (R81, R83, R84, R104). -/

namespace Sys2Proof.Machine

/-! ### Locks -/

theorem State.lockRoute_leaves (s : State) (r : Nat) : s.lockRoute r = { s with elems := (s.lockRoute r).elems } ∧
    ∀ k, (s.lockRoute r).elem k = if k ∈ s.lockedSet r then { s.elem k with lockOwner := some r } else s.elem k := by
  have hfold (es : List Nat) (u : State) : es.foldl (fun s e => s.lockTo r e) u =
      { u with elems := (es.foldl (fun s e => s.lockTo r e) u).elems } ∧
      ∀ k, (es.foldl (fun s e => s.lockTo r e) u).elem k =
        if k ∈ es then { u.elem k with lockOwner := some r } else u.elem k := by
    induction es generalizing u with
    | nil => exact ⟨rfl, fun _ => by simp⟩
    | cons e es ih =>
      obtain ⟨hframe, helem⟩ := ih (u.lockTo r e)
      refine ⟨hframe, fun k => ?_⟩
      rw [List.foldl_cons, helem, State.lockTo, State.elem_modElem]
      by_cases h1 : k ∈ es
      · by_cases h2 : k = e
        · subst h2; simp [h1]
        · simp [h1, h2]
      · by_cases h2 : k = e
        · subst h2; simp [h1]
        · simp [h1, h2]
  exact hfold (s.lockedSet r) s

/-! ### Claims -/

/-- No two records of one element demand opposite positions (R100). -/
def agreeing (res : List FlankRec) : Prop :=
  ∀ f ∈ res, ∀ g ∈ res, f.elem = g.elem → ∀ a b, f.state.side = some a → g.state.side = some b → a = b

theorem State.makeClaims_frame (res : List FlankRec) (s : State) :
    res.foldl State.makeClaim s = { s with elems := (res.foldl State.makeClaim s).elems } := by
  induction res generalizing s with
  | nil => rfl
  | cons f fs ih => exact ih (s.makeClaim f)

/-- An element's record without its claims. -/
def Elem.unclaimed (x : Elem) : Elem := { x with claims := 0, claimed := none }

theorem Elem.unclaimed_fields {x y : Elem} (h : x.unclaimed = y.unclaimed) :
    x.lockOwner = y.lockOwner ∧ x.pointCmd = y.pointCmd ∧ x.watch = y.watch ∧ x.reported = y.reported := by
  unfold Elem.unclaimed at h
  injection h
  and_intros <;> assumption

theorem State.makeClaim_elem (s : State) (f : FlankRec) (k : Nat) :
    ((s.makeClaim f).elem k).unclaimed = (s.elem k).unclaimed ∧
    ((s.makeClaim f).elem k).claims = (s.elem k).claims + (if f.elem = k then 1 else 0) ∧
    ((s.makeClaim f).elem k).claimed = (if f.elem = k then f.state.side.or (s.elem k).claimed else (s.elem k).claimed) := by
  unfold State.makeClaim
  rw [State.elem_modElem]
  by_cases h : k = f.elem
  · subst h
    rw [if_pos rfl, if_pos rfl, if_pos rfl]
    refine ⟨rfl, rfl, ?_⟩
    cases f.state.side <;> rfl
  · rw [if_neg h, if_neg (Ne.symm h), if_neg (Ne.symm h)]
    exact ⟨rfl, rfl, rfl⟩

theorem State.makeClaims_elem (res : List FlankRec) (s : State) (k : Nat) :
    ((res.foldl State.makeClaim s).elem k).unclaimed = (s.elem k).unclaimed ∧
    ((res.foldl State.makeClaim s).elem k).claims = (s.elem k).claims + (res.filter (fun f => f.elem == k)).length := by
  induction res generalizing s with
  | nil => exact ⟨rfl, rfl⟩
  | cons f fs ih =>
    obtain ⟨h1, h2, -⟩ := s.makeClaim_elem f k
    obtain ⟨k1, k2⟩ := ih (s.makeClaim f)
    refine ⟨k1.trans h1, ?_⟩
    rw [List.foldl_cons, k2, h2, List.filter_cons]
    by_cases h : f.elem = k
    · simp [h]
      omega
    · simp [h]

theorem State.makeClaims_unnamed (res : List FlankRec) (s : State) (k : Nat) (h : ∀ f ∈ res, f.elem ≠ k) :
    ((res.foldl State.makeClaim s).elem k).claimed = (s.elem k).claimed := by
  induction res generalizing s with
  | nil => rfl
  | cons f fs ih =>
    obtain ⟨-, -, hc⟩ := s.makeClaim_elem f k
    rw [List.foldl_cons, ih (s.makeClaim f) (fun g hg => h g (List.mem_cons_of_mem _ hg)), hc,
      if_neg (h f (List.mem_cons_self ..))]

/-- A point is claimed for the position that its records demand (R104). -/
theorem State.makeClaims_claimed (res : List FlankRec) (s : State) (k : Nat) (side : Side)
    (hall : ∀ g ∈ res, g.elem = k → ∀ b, g.state.side = some b → b = side)
    (h : (s.elem k).claimed = some side ∨ ∃ f ∈ res, f.elem = k ∧ f.state.side = some side) :
    ((res.foldl State.makeClaim s).elem k).claimed = some side := by
  induction res generalizing s with
  | nil => exact h.resolve_right (fun ⟨f, hf, _⟩ => absurd hf List.not_mem_nil)
  | cons f fs ih =>
    obtain ⟨-, -, hc⟩ := s.makeClaim_elem f k
    refine ih (s.makeClaim f) (fun g hg => hall g (List.mem_cons_of_mem _ hg)) ?_
    rw [hc]
    by_cases hk : f.elem = k
    · rw [if_pos hk]
      cases hs : f.state.side with
      | some b => exact .inl (by rw [hall f (List.mem_cons_self ..) hk b hs]; rfl)
      | none =>
        refine h.imp (fun h => h) (fun ⟨g, hg, hgk, hgs⟩ => ⟨g, ?_, hgk, hgs⟩)
        refine (List.mem_cons.1 hg).resolve_left (fun e => ?_)
        rw [e, hs] at hgs
        cases hgs
    · rw [if_neg hk]
      refine h.imp_right (fun ⟨g, hg, hgk, hgs⟩ => ⟨g, (List.mem_cons.1 hg).resolve_left (fun e => hk (e ▸ hgk)), hgk, hgs⟩)

/-! ### What a flank resolution holds -/

theorem State.walkChain_available {s : State} {r n i e : Nat} {res : List FlankRec} {st : FlankState}
    (h : s.walkChain r res n i = some (e, st)) :
    ∃ f : FlankRow, f.elem = e ∧ f.state = some st ∧ s.flankAvailable r res f = true := by
  induction n generalizing i with
  | zero => cases h
  | succ n ih =>
    unfold State.walkChain at h
    dsimp only at h
    split at h
    · next hf =>
      obtain ⟨st', hst, heq⟩ := Option.map_eq_some_iff.1 h
      cases heq
      exact ⟨_, rfl, hst, hf⟩
    · split at h
      · exact ih h
      · cases h

theorem FlankState.eq_flank_of_side {x : FlankState} {b : Side} (h : x.side = some b) : x = b.flank := by
  cases x <;> cases h <;> rfl

theorem Side.eq_or_other (a b : Side) : a = b ∨ b = a.other := by
  cases a <;> cases b <;> simp [Side.other]

theorem State.agrees_of_pointAvailable {s : State} {r e : Nat} {res : List FlankRec} {a b : Side} {g : FlankRec}
    (h : s.pointAvailable r res e a = true) (hg : g ∈ res) (he : g.elem = e) (hb : g.state.side = some b) : a = b := by
  unfold State.pointAvailable at h
  simp only [Bool.and_eq_true, Bool.not_eq_true'] at h
  obtain ⟨⟨⟨-, hnone⟩, -⟩, -⟩ := h
  have hne : g.state ≠ a.other.flank := fun hs => by
    have hfalse := List.any_eq_false.1 hnone g hg
    simp [he, hs] at hfalse
  rw [FlankState.eq_flank_of_side hb] at hne
  rcases Side.eq_or_other a b with hab | hab
  · exact hab
  · exact absurd (by rw [hab]) hne

/-- An entry found available does not demand another position than a record before it (R100). -/
theorem State.agrees_of_available {s : State} {r : Nat} {res : List FlankRec} {f : FlankRow} {st : FlankState}
    {a b : Side} {g : FlankRec} (hst : f.state = some st) (h : s.flankAvailable r res f = true) (hg : g ∈ res)
    (he : g.elem = f.elem) (ha : st.side = some a) (hb : g.state.side = some b) : a = b := by
  unfold State.flankAvailable at h
  split at h
  · next hs =>
    obtain rfl := Option.some.inj (hst.symm.trans hs)
    cases ha
    exact State.agrees_of_pointAvailable h hg he hb
  · next hs =>
    obtain rfl := Option.some.inj (hst.symm.trans hs)
    cases ha
    exact State.agrees_of_pointAvailable h hg he hb
  · next hs =>
    obtain rfl := Option.some.inj (hst.symm.trans hs)
    cases ha
  · cases h

theorem State.resolveFlank_agreeing {s : State} {r : Nat} {qs : List ListRow} {res out : List FlankRec}
    (h : s.resolveFlank r res qs = .ok out) (hres : agreeing res) : agreeing out := by
  induction qs generalizing res with
  | nil =>
    cases h
    exact hres
  | cons q qs ih =>
    unfold State.resolveFlank at h
    split at h
    · next e st hw =>
      refine ih h ?_
      obtain ⟨f, rfl, hst, hf⟩ := State.walkChain_available hw
      intro x hx y hy hxy a b ha hb
      rcases List.mem_append.1 hx with hx | hx <;> rcases List.mem_append.1 hy with hy | hy
      · exact hres x hx y hy hxy a b ha hb
      · obtain rfl := List.mem_singleton.1 hy
        exact (State.agrees_of_available hst hf hx hxy hb ha).symm
      · obtain rfl := List.mem_singleton.1 hx
        exact State.agrees_of_available hst hf hy hxy.symm ha hb
      · obtain rfl := List.mem_singleton.1 hx
        obtain rfl := List.mem_singleton.1 hy
        exact Option.some.inj (ha.symm.trans hb)
    · cases h

theorem State.reservationOutcome_agreeing {s : State} {r : Nat} {res : List FlankRec}
    (h : s.reservationOutcome r = .ok res) : agreeing res := by
  unfold State.reservationOutcome at h
  split at h
  · cases h
  · split at h
    · next hr =>
      cases h
      exact State.resolveFlank_agreeing hr (fun f hf => absurd hf List.not_mem_nil)
    · cases h

/-! ### Commands -/

/-- The points of a reservation are listed once each (R79). -/
theorem State.routePoints_distinct (s : State) (r : Nat) (res : List FlankRec) :
    (s.routePoints r res).Pairwise (fun a b => a.elem ≠ b.elem) := by
  have hfold (l acc : List Awaited) (h : acc.Pairwise (fun a b => a.elem ≠ b.elem)) :
      (l.foldl (fun acc a => if acc.any (fun b => b.elem == a.elem) then acc else acc ++ [a]) acc).Pairwise
        (fun a b => a.elem ≠ b.elem) := by
    induction l generalizing acc with
    | nil => exact h
    | cons x l ih =>
      refine ih _ ?_
      dsimp only
      split
      · exact h
      · next hn =>
        refine List.pairwise_append.2 ⟨h, List.pairwise_singleton _ _, fun a ha b hb he => hn ?_⟩
        obtain rfl := List.mem_singleton.1 hb
        exact List.any_eq_true.2 ⟨a, ha, by simpa using he⟩
  exact hfold _ [] List.Pairwise.nil

/-- A point's record commanded to a position (R15). -/
def State.commanded (s : State) (a : Awaited) : Elem := { s.elem a.elem with
  pointCmd := a.side.cmd
  watch := if (s.elem a.elem).reported = a.side.reported then none
           else some (s.deadlineAfter (10 * (s.erow a.elem).throwLimit)) }

theorem State.commanded_congr {s t : State} {a : Awaited} (h : t = { s with elems := t.elems })
    (he : t.elem a.elem = s.elem a.elem) : t.commanded a = s.commanded a := by
  have h1 : t.deadlineAfter = s.deadlineAfter ∧ t.erow = s.erow := by
    rw [h]
    exact ⟨rfl, rfl⟩
  unfold State.commanded
  rw [he, h1.1, h1.2]

theorem State.commandPoints_leaves (pts : List Awaited) (s : State) (h : pts.Pairwise (fun a b => a.elem ≠ b.elem)) :
    s.commandPoints pts = { s with elems := (s.commandPoints pts).elems } ∧
    (∀ a ∈ pts, (s.commandPoints pts).elem a.elem = s.commanded a) ∧
    ∀ k, (∀ a ∈ pts, a.elem ≠ k) → (s.commandPoints pts).elem k = s.elem k := by
  induction pts generalizing s with
  | nil => exact ⟨rfl, fun a ha => absurd ha List.not_mem_nil, fun _ _ => rfl⟩
  | cons p ps ih =>
    obtain ⟨hp, hps⟩ := List.pairwise_cons.1 h
    have hone (k : Nat) (hk : k ≠ p.elem) : (s.commandPoint p.elem p.side).elem k = s.elem k :=
      (State.elem_modElem s p.elem k _).trans (if_neg hk)
    have hself : (s.commandPoint p.elem p.side).elem p.elem = s.commanded p := s.commandPoint_elem p.elem p.side
    obtain ⟨hframe, hin, hout⟩ := ih (s.commandPoint p.elem p.side) hps
    refine ⟨hframe, fun a ha => ?_, fun k hk => ?_⟩
    · rcases List.mem_cons.1 ha with rfl | ha
      · exact (hout a.elem (fun b hb => (hp b hb).symm)).trans hself
      · exact (hin a ha).trans (State.commanded_congr rfl (hone a.elem (hp a ha).symm))
    · exact (hout k (fun b hb => hk b (List.mem_cons_of_mem _ hb))).trans (hone k (hk p (List.mem_cons_self ..)).symm)

/-! ### The state of a reservation -/

/-- What a reservation that passes leaves of elements, routes and contexts (R81, R83, R104). -/
structure State.Reserved (s t : State) (c r : Nat) (res : List FlankRec) (x : Ctx) : Prop where
  locked : ∀ e, e ∈ s.lockedSet r → (t.elem e).lockOwner = some r
  unlocked : ∀ e, e ∉ s.lockedSet r → (t.elem e).lockOwner = (s.elem e).lockOwner
  claims : ∀ e, (t.elem e).claims = (s.elem e).claims + (res.filter (fun f => f.elem == e)).length
  claimed : ∀ f side, f ∈ res → f.state.side = some side → (t.elem f.elem).claimed = some side
  unclaimed : ∀ e, (∀ f, f ∈ res → f.elem ≠ e) → (t.elem e).claimed = (s.elem e).claimed
  commanded : ∀ a, a ∈ s.routePoints r res → (t.elem a.elem).pointCmd = a.side.cmd ∧
    (t.elem a.elem).watch = if (s.elem a.elem).reported = a.side.reported then none
      else some (s.deadlineAfter (10 * (s.erow a.elem).throwLimit))
  uncommanded : ∀ e, (∀ a, a ∈ s.routePoints r res → a.elem ≠ e) → (t.elem e).pointCmd = (s.elem e).pointCmd
  route : ∀ k, t.route k = if k = r then (s.route r).taken c (s.rrow r).groups res else s.route k
  ctx : t.ctx c = some x

/-- The locks and claims of a reservation (R81, R104). -/
def State.claiming (s : State) (r : Nat) (res : List FlankRec) : State := res.foldl State.makeClaim (s.lockRoute r)

theorem State.claiming_leaves (s : State) (r : Nat) (res : List FlankRec) (h : agreeing res) :
    s.claiming r res = { s with elems := (s.claiming r res).elems } ∧
    (∀ e, ((s.claiming r res).elem e).lockOwner = if e ∈ s.lockedSet r then some r else (s.elem e).lockOwner) ∧
    (∀ e, ((s.claiming r res).elem e).pointCmd = (s.elem e).pointCmd ∧
      ((s.claiming r res).elem e).reported = (s.elem e).reported) ∧
    (∀ e, ((s.claiming r res).elem e).claims = (s.elem e).claims + (res.filter (fun f => f.elem == e)).length) ∧
    (∀ f side, f ∈ res → f.state.side = some side → ((s.claiming r res).elem f.elem).claimed = some side) ∧
    (∀ e, (∀ f, f ∈ res → f.elem ≠ e) → ((s.claiming r res).elem e).claimed = (s.elem e).claimed) := by
  obtain ⟨hframe, hlock⟩ := s.lockRoute_leaves r
  have hmade := State.makeClaims_frame res (s.lockRoute r)
  have helem (e : Nat) := State.makeClaims_elem res (s.lockRoute r) e
  have hnone (e : Nat) := State.makeClaims_unnamed res (s.lockRoute r) e
  have hclaimed (f : FlankRec) (side : Side) (hf : f ∈ res) (hs : f.state.side = some side) :=
    State.makeClaims_claimed res (s.lockRoute r) f.elem side (fun g hg he b hb => h g hg f hf he b side hb hs)
      (.inr ⟨f, hf, rfl, hs⟩)
  have hbase (e : Nat) : ((s.lockRoute r).elem e).claims = (s.elem e).claims ∧
      ((s.lockRoute r).elem e).claimed = (s.elem e).claimed ∧ ((s.lockRoute r).elem e).pointCmd = (s.elem e).pointCmd ∧
      ((s.lockRoute r).elem e).reported = (s.elem e).reported := by
    rw [hlock]
    split <;> exact ⟨rfl, rfl, rfl, rfl⟩
  unfold State.claiming
  generalize s.lockRoute r = u at *
  generalize res.foldl State.makeClaim u = t at *
  refine ⟨?_, fun e => ?_, fun e => ?_, fun e => ?_, hclaimed, fun e he => (hnone e he).trans (hbase e).2.1⟩
  · rw [hframe] at hmade
    exact hmade
  · rw [(Elem.unclaimed_fields (helem e).1).1, hlock]
    split <;> rfl
  · obtain ⟨-, hp, -, hr⟩ := Elem.unclaimed_fields (helem e).1
    obtain ⟨-, -, hp', hr'⟩ := hbase e
    exact ⟨hp.trans hp', hr.trans hr'⟩
  · rw [(helem e).2, (hbase e).1]

theorem State.frame_of_reserving {s v w t : State} (h : v = { s with elems := v.elems, routes := v.routes })
    (k : w = { v with elems := w.elems }) (m : t = { w with contexts := t.contexts }) :
    t = { s with elems := t.elems, routes := t.routes, contexts := t.contexts } := by
  have he : t.elems = w.elems := by rw [m]
  have hr : t.routes = v.routes := by rw [m, k]
  rw [he, hr]
  rw [h] at k
  rw [k] at m
  exact m

/-- An element's record without what commands a point. -/
def Elem.uncommanded (x : Elem) : Elem := { x with pointCmd := .hold, watch := none }

theorem Elem.uncommanded_fields {x y : Elem} (h : x.uncommanded = y.uncommanded) :
    x.lockOwner = y.lockOwner ∧ x.claims = y.claims ∧ x.claimed = y.claimed := by
  unfold Elem.uncommanded at h
  injection h
  and_intros <;> assumption

theorem State.commandPoints_uncommanded (pts : List Awaited) (s : State) (k : Nat)
    (h : pts.Pairwise (fun a b => a.elem ≠ b.elem)) :
    ((s.commandPoints pts).elem k).uncommanded = (s.elem k).uncommanded := by
  obtain ⟨-, hin, hout⟩ := State.commandPoints_leaves pts s h
  by_cases hk : ∃ a ∈ pts, a.elem = k
  · obtain ⟨a, ha, rfl⟩ := hk
    rw [hin a ha]
    rfl
  · rw [hout k (fun a ha he => hk ⟨a, ha, he⟩)]

theorem State.reads_of_claiming {s u : State} (h : u = { s with elems := u.elems, routes := u.routes }) :
    u.deadlineAfter = s.deadlineAfter ∧ u.erow = s.erow := by
  rw [h]
  exact ⟨rfl, rfl⟩

/-- The commands and the context that follow the locks and claims of a reservation. -/
theorem State.reserved_of_claimed {s v : State} {c r : Nat} {res : List FlankRec}
    (hframe : v = { s with elems := v.elems, routes := v.routes })
    (hlock : ∀ e, (v.elem e).lockOwner = if e ∈ s.lockedSet r then some r else (s.elem e).lockOwner)
    (hpoint : ∀ e, (v.elem e).pointCmd = (s.elem e).pointCmd ∧ (v.elem e).reported = (s.elem e).reported)
    (hclaims : ∀ e, (v.elem e).claims = (s.elem e).claims + (res.filter (fun f => f.elem == e)).length)
    (hclaimed : ∀ f side, f ∈ res → f.state.side = some side → (v.elem f.elem).claimed = some side)
    (hunclaimed : ∀ e, (∀ f, f ∈ res → f.elem ≠ e) → (v.elem e).claimed = (s.elem e).claimed)
    (htaken : ∀ k, v.route k = if k = r then (s.route r).taken c (s.rrow r).groups res else s.route k)
    (hdistinct : (s.routePoints r res).Pairwise (fun a b => a.elem ≠ b.elem)) (x : Ctx) :
    (v.commandPoints (s.routePoints r res)).setCtx c (some x) = { s with
      elems := ((v.commandPoints (s.routePoints r res)).setCtx c (some x)).elems
      routes := ((v.commandPoints (s.routePoints r res)).setCtx c (some x)).routes
      contexts := ((v.commandPoints (s.routePoints r res)).setCtx c (some x)).contexts } ∧
    State.Reserved s ((v.commandPoints (s.routePoints r res)).setCtx c (some x)) c r res x := by
  obtain ⟨hcmd, hin, hout⟩ := State.commandPoints_leaves (s.routePoints r res) v hdistinct
  have hrest (k : Nat) := Elem.uncommanded_fields (State.commandPoints_uncommanded (s.routePoints r res) v k hdistinct)
  obtain ⟨hdeadline, herow⟩ := State.reads_of_claiming hframe
  have hroute : (v.commandPoints (s.routePoints r res)).route = v.route := by
    rw [hcmd]
    rfl
  generalize v.commandPoints (s.routePoints r res) = w at *
  refine ⟨State.frame_of_reserving hframe hcmd rfl, ?_⟩
  exact {
    locked := fun e he => ((hrest e).1.trans (hlock e)).trans (if_pos he)
    unlocked := fun e he => ((hrest e).1.trans (hlock e)).trans (if_neg he)
    claims := fun e => (hrest e).2.1.trans (hclaims e)
    claimed := fun f side hf hs => (hrest f.elem).2.2.trans (hclaimed f side hf hs)
    unclaimed := fun e he => (hrest e).2.2.trans (hunclaimed e he)
    commanded := fun a ha => by
      change (w.elem a.elem).pointCmd = _ ∧ (w.elem a.elem).watch = _
      rw [hin a ha, ← hdeadline, ← herow, ← (hpoint a.elem).2]
      exact ⟨rfl, rfl⟩
    uncommanded := fun e he => (congrArg Elem.pointCmd (hout e he)).trans (hpoint e).1
    route := fun k => (congrFun hroute k).trans (htaken k)
    ctx := (State.ctx_setCtx w c c (some x)).trans (if_pos rfl) }

theorem State.reserving_leaves (s : State) (c r : Nat) (res : List FlankRec) (h : agreeing res) :
    s.reserving c r res = { s with
      elems := (s.reserving c r res).elems, routes := (s.reserving c r res).routes
      contexts := (s.reserving c r res).contexts } ∧
    State.Reserved s (s.reserving c r res) c r res
      { route := r, awaited := s.awaitedPoints r res, reply := false, offerRef := none } := by
  obtain ⟨hframe, hlock, hpoint, hclaims, hclaimed, hunclaimed⟩ := s.claiming_leaves r res h
  have hdistinct := s.routePoints_distinct r res
  have heq : s.reserving c r res = (((s.claiming r res).modRoute r
    (fun x => x.taken c (s.rrow r).groups res)).commandPoints (s.routePoints r res)).setCtx c
      (some { route := r, awaited := s.awaitedPoints r res, reply := false, offerRef := none }) := rfl
  have hroute : (s.claiming r res).route = s.route := by
    rw [hframe]
    rfl
  have htaken (k : Nat) := State.route_modRoute (s.claiming r res) r k (fun x => x.taken c (s.rrow r).groups res)
  have hframe2 : (s.claiming r res).modRoute r (fun x => x.taken c (s.rrow r).groups res) = { s with
      elems := ((s.claiming r res).modRoute r (fun x => x.taken c (s.rrow r).groups res)).elems
      routes := ((s.claiming r res).modRoute r (fun x => x.taken c (s.rrow r).groups res)).routes } := by
    refine State.frame_of_written (v := s.claiming r res) ?_ rfl
    rw [hframe]
  have helem : ((s.claiming r res).modRoute r (fun x => x.taken c (s.rrow r).groups res)).elem = (s.claiming r res).elem :=
    rfl
  rw [hroute] at htaken
  rw [heq]
  rw [← helem] at hlock hpoint hclaims hclaimed hunclaimed
  generalize (s.claiming r res).modRoute r (fun x => x.taken c (s.rrow r).groups res) = v at *
  exact State.reserved_of_claimed hframe2 hlock hpoint hclaims hclaimed hunclaimed htaken hdistinct _

end Sys2Proof.Machine

/-! PROOF SUPPORT. A reservation that passes, and the Offer of an EXIT route (R84, R142). -/

namespace Sys2Proof.Machine

/-- The state of an Offer sent (R142). -/
def State.offered (s : State) (l : Link) (dest variant : Nat) : State :=
  ((s.setOfferRef l (s.offerRef l + 1)).send l.port (.transaction (s.offerTx l dest variant))).setTrans dest
    { state := .offerSent, reference := some (s.offerRef l + 1), lastSent := some (s.offerTx l dest variant) }

theorem State.offered_frame (s : State) (l : Link) (dest variant : Nat) : ∃ x y,
    (match l with | .b1 => x | .b2 => y) = s.offerRef l + 1 ∧
    s.offered l dest variant = { s with
      offerRef1 := x, offerRef2 := y, sent := s.sent ++ [⟨l.port, .transaction (s.offerTx l dest variant)⟩]
      trans := tblSet {} s.trans dest { state := .offerSent, reference := some (s.offerRef l + 1)
                                        lastSent := some (s.offerTx l dest variant) } } := by
  cases l with
  | b1 => exact ⟨s.offerRef .b1 + 1, s.offerRef2, rfl, rfl⟩
  | b2 => exact ⟨s.offerRef1, s.offerRef .b2 + 1, rfl, rfl⟩

theorem State.offered_leaves (s : State) (l : Link) (dest variant : Nat) :
    (s.offered l dest variant).elem = s.elem ∧ (s.offered l dest variant).route = s.route ∧
    (s.offered l dest variant).requests = s.requests ∧ (s.offered l dest variant).startTimer = s.startTimer ∧
    (s.offered l dest variant).store = s.store ∧ (s.offered l dest variant).offerRef l = s.offerRef l + 1 ∧
    (s.offered l dest variant).sent = s.sent ++ [⟨l.port, .transaction (s.offerTx l dest variant)⟩] ∧
    (s.offered l dest variant).transOf dest =
      { state := .offerSent, reference := some (s.offerRef l + 1), lastSent := some (s.offerTx l dest variant) } := by
  obtain ⟨x, y, href, h⟩ := s.offered_frame l dest variant
  refine ⟨by rw [h]; rfl, by rw [h]; rfl, by rw [h], by rw [h]; rfl, by rw [h], ?_, by rw [h], ?_⟩
  · rw [h, ← href]
    cases l <;> rfl
  · unfold State.offered
    rw [State.transOf_setTrans, if_pos rfl]

/-- What the Offer of a reservation leaves (R84, R142). -/
structure Ev.Offered (a b : Ev) (l : Link) (c r dest variant : Nat) (awaited : List Awaited) : Prop where
  before : b.before = a.before
  elem : b.s.elem = a.s.elem
  route : b.s.route = a.s.route
  requests : b.s.requests = a.s.requests
  offerRef : b.s.offerRef l = a.s.offerRef l + 1
  sent : b.s.sent = a.s.sent ++ [⟨l.port, .transaction (a.s.offerTx l dest variant)⟩]
  trans : (b.s.transOf dest).state = .offerSent ∧ (b.s.transOf dest).reference = some (a.s.offerRef l + 1)
  ctx : b.s.ctx c = some { route := r, awaited := awaited, reply := true, offerRef := some (a.s.offerRef l + 1) }
  ctxTimer : b.s.ctxTimer c = some (a.s.startTimer (timerSetting (1000 * siteReplyTime a.s.store)))

theorem State.awaitingReply_leaves (v : State) (c : Nat) (x : Ctx) :
    ((v.setCtx c (some x)).startCtxTimer c).ctx c = some x ∧
    ((v.setCtx c (some x)).startCtxTimer c).ctxTimer c =
      some (v.startTimer (timerSetting (1000 * siteReplyTime v.store))) ∧
    ((v.setCtx c (some x)).startCtxTimer c) = { v with
      contexts := ((v.setCtx c (some x)).startCtxTimer c).contexts
      ctxTimers := ((v.setCtx c (some x)).startCtxTimer c).ctxTimers } := by
  refine ⟨?_, ?_, rfl⟩
  · exact (State.ctx_setCtx v c c (some x)).trans (if_pos rfl)
  · unfold State.startCtxTimer
    rw [State.ctxTimer_setCtxTimer, if_pos rfl]
    rfl

theorem State.reads_of_ctx {s t : State} (h : t = { s with contexts := t.contexts, ctxTimers := t.ctxTimers }) :
    t.elem = s.elem ∧ t.route = s.route ∧ t.requests = s.requests ∧ t.offerRef = s.offerRef ∧ t.sent = s.sent ∧
    t.transOf = s.transOf := by
  rw [h]
  exact ⟨rfl, rfl, rfl, by funext l; cases l <;> rfl, rfl, rfl⟩

theorem Ev.offering_offered (a : Ev) (l : Link) (c r dest variant : Nat) (awaited : List Awaited) :
    Ev.Offered a (a.offering l c r dest variant awaited) l c r dest variant awaited := by
  obtain ⟨h1, h2, h3, h4, h5, h6, h7, h8⟩ := a.s.offered_leaves l dest variant
  obtain ⟨hctx, htimer, hframe⟩ := State.awaitingReply_leaves (a.s.offered l dest variant) c
    { route := r, awaited := awaited, reply := true, offerRef := some (a.s.offerRef l + 1) }
  obtain ⟨k1, k2, k3, k4, k5, k6⟩ := State.reads_of_ctx hframe
  have hs : (a.offering l c r dest variant awaited).s = ((a.s.offered l dest variant).setCtx c
    (some { route := r, awaited := awaited, reply := true, offerRef := some (a.s.offerRef l + 1) })).startCtxTimer c := rfl
  have hb : (a.offering l c r dest variant awaited).before = a.before := rfl
  generalize a.offering l c r dest variant awaited = b at *
  rw [← hs] at hctx htimer k1 k2 k3 k4 k5 k6
  exact {
    before := hb
    elem := k1.trans h1
    route := k2.trans h2
    requests := k3.trans h3
    offerRef := (congrFun k4 l).trans h6
    sent := k5.trans h7
    trans := by rw [k6, h8]; exact ⟨rfl, rfl⟩
    ctx := hctx
    ctxTimer := by rw [htimer, h4, h5] }

/-! ### The reservation -/

/-- The state in which a reservation is taken: the request has left the queue (R80). -/
def State.dequeued (s : State) (rest : List Request) : State := { s.begun with requests := rest }

theorem State.dequeued_reads (s : State) (rest : List Request) :
    (s.dequeued rest).lockedSet = s.lockedSet ∧ (s.dequeued rest).routePoints = s.routePoints ∧
    (s.dequeued rest).elem = s.elem ∧ (s.dequeued rest).deadlineAfter = s.deadlineAfter ∧
    (s.dequeued rest).erow = s.erow ∧ (s.dequeued rest).rrow = s.rrow ∧ (s.dequeued rest).route = s.route ∧
    (s.dequeued rest).awaitedPoints = s.awaitedPoints := by
  have hside : (s.dequeued rest).atSide = s.atSide := by
    obtain ⟨-, -, -, -, -, -, -, -, -, -, -, -, -, -, -, -, h, -⟩ := s.begun_reads
    exact h
  refine ⟨rfl, rfl, rfl, rfl, rfl, rfl, rfl, ?_⟩
  funext r res
  unfold State.awaitedPoints
  rw [hside]
  rfl

theorem State.dequeued_border (s : State) (rest : List Request) :
    (s.dequeued rest).routeKind = s.routeKind ∧ (s.dequeued rest).elemLink = s.elemLink ∧
    (s.dequeued rest).offerRef = s.offerRef ∧ (s.dequeued rest).offerTx = s.offerTx ∧
    (s.dequeued rest).startTimer = s.startTimer ∧ (s.dequeued rest).store = s.store ∧
    (s.dequeued rest).sent = s.sent ∧ (s.dequeued rest).isEntry = s.isEntry ∧
    (s.dequeued rest).pointByte = s.pointByte ∧ (s.dequeued rest).desig = s.desig ∧
    (s.dequeued rest).transOf = s.transOf ∧ (s.dequeued rest).trans = s.trans := by
  have href : (s.dequeued rest).offerRef = s.offerRef := by
    funext l
    cases l <;> rfl
  refine ⟨rfl, rfl, href, ?_, rfl, rfl, rfl, rfl, rfl, rfl, rfl, rfl⟩
  funext l e v
  unfold State.offerTx
  rw [href]
  rfl

theorem State.Reserved.of_dequeued {s t : State} {rest : List Request} {c r : Nat} {res : List FlankRec} {x : Ctx}
    (h : (s.dequeued rest).Reserved t c r res x) : s.Reserved t c r res x := by
  obtain ⟨h1, h2, h3, h4, h5, h6, h7, -⟩ := s.dequeued_reads rest
  obtain ⟨k1, k2, k3, k4, k5, k6, k7, k8, k9⟩ := h
  rw [h1] at k1 k2
  rw [h2] at k6 k7
  rw [h3] at k2 k3 k5 k6 k7
  rw [h4, h5] at k6
  rw [h6, h7] at k8
  exact ⟨k1, k2, k3, k4, k5, k6, k7, k8, k9⟩

/-- The event of a reservation that passes (R80, R81). -/
def Ev.reserving (s : State) (rest : List Request) (c r : Nat) (res : List FlankRec) : Ev :=
  ⟨s, (s.dequeued rest).reserving c r res, [], []⟩

theorem exec_reservation_of_ok {s : State} {q : Request} {rest : List Request} {c : Nat} {res : List FlankRec}
    (hm : s.mode = .operational) (hr : s.requests = q :: rest) (hc : s.freeCtxNumber = some c)
    (ho : s.reservationOutcome q.route = .ok res) : exec .reservation s =
      .next (((⟨s, s.dequeued rest, [], []⟩ : Ev).reserved c q.route res).completeIfDone c).settle := by
  refine congrArg Host.Outcome.next ((takeReservation_of_some (State.nextReservation_of_possible hm hr hc)).trans ?_)
  rw [Ev.reservation_start, ho, hr]
  rfl

theorem Ev.reserved_of_exit {s : State} {rest : List Request} {c r : Nat} {res : List FlankRec} {l : Link}
    (h : agreeing res) (hk : s.routeKind r = some .exit) (hl : s.elemLink (s.rrow r).dest = some l) :
    (⟨s, s.dequeued rest, [], []⟩ : Ev).reserved c r res =
      (Ev.reserving s rest c r res).offering l c r (s.rrow r).dest (s.rrow r).variant (s.awaitedPoints r res) := by
  obtain ⟨hframe, -⟩ := (s.dequeued rest).reserving_leaves c r res h
  obtain ⟨-, -, -, -, -, hrow, -, hawaited⟩ := s.dequeued_reads rest
  have hk' : ((s.dequeued rest).reserving c r res).routeKind r = some .exit := by
    rw [hframe]
    exact hk
  have hl' : ((s.dequeued rest).reserving c r res).elemLink (s.rrow r).dest = some l := by
    rw [hframe]
    exact hl
  unfold Ev.reserved
  dsimp only
  rw [hrow, hk', hl', hawaited]
  rfl

theorem Ev.reserved_of_other {s : State} {rest : List Request} {c r : Nat} {res : List FlankRec}
    (h : agreeing res) (hk : s.routeKind r ≠ some .exit ∨ s.elemLink (s.rrow r).dest = none) :
    (⟨s, s.dequeued rest, [], []⟩ : Ev).reserved c r res = Ev.reserving s rest c r res := by
  obtain ⟨hframe, -⟩ := (s.dequeued rest).reserving_leaves c r res h
  obtain ⟨-, -, -, -, -, hrow, -⟩ := s.dequeued_reads rest
  have hk' : ((s.dequeued rest).reserving c r res).routeKind r = s.routeKind r := by
    rw [hframe]
    rfl
  have hl' : ((s.dequeued rest).reserving c r res).elemLink (s.rrow r).dest = s.elemLink (s.rrow r).dest := by
    rw [hframe]
    rfl
  unfold Ev.reserved
  dsimp only
  rw [hrow, hk', hl']
  split
  · next h1 h2 => exact absurd hk (by rw [h1, h2]; simp)
  · rfl

/-- What every reservation that passes leaves, whatever its route's kind. -/
structure Ev.Takes (s : State) (b : Ev) (rest : List Request) (r : Nat) (res : List FlankRec) (t : State) : Prop where
  before : b.before = s
  requests : b.s.requests = rest
  elem : b.s.elem = t.elem
  flank : (b.s.route r).flank = res
  groups : (b.s.route r).groups = List.replicate (s.rrow r).groups .reserved
  wasCleared : (b.s.route r).wasCleared = false
  others : ∀ k, k ≠ r → b.s.route k = s.route k

/-- The state of a reservation before its Offer, as the part reads it. -/
theorem State.dequeued_reserving (s : State) (rest : List Request) (c r : Nat) (res : List FlankRec) (h : agreeing res) :
    s.Reserved ((s.dequeued rest).reserving c r res) c r res
      { route := r, awaited := s.awaitedPoints r res, reply := false, offerRef := none } ∧
    (s.dequeued rest).reserving c r res = { s.dequeued rest with
      elems := ((s.dequeued rest).reserving c r res).elems, routes := ((s.dequeued rest).reserving c r res).routes
      contexts := ((s.dequeued rest).reserving c r res).contexts } := by
  obtain ⟨hframe, hreserved⟩ := (s.dequeued rest).reserving_leaves c r res h
  obtain ⟨-, -, -, -, -, -, -, hawaited⟩ := s.dequeued_reads rest
  have hr := hreserved.of_dequeued
  rw [hawaited] at hr
  exact ⟨hr, hframe⟩

theorem State.reads_of_reserving {u t : State} (h : t = { u with
      elems := t.elems, routes := t.routes, contexts := t.contexts }) :
    t.requests = u.requests ∧ t.offerRef = u.offerRef ∧ t.offerTx = u.offerTx ∧ t.startTimer = u.startTimer ∧
    t.store = u.store ∧ t.sent = u.sent ∧ t.isEntry = u.isEntry ∧ t.pointByte = u.pointByte ∧ t.desig = u.desig ∧
    t.transOf = u.transOf ∧ t.trans = u.trans ∧ t.rrow = u.rrow := by
  have href : t.offerRef = u.offerRef := by
    rw [h]
    funext l
    cases l <;> rfl
  refine ⟨by rw [h], href, ?_, by rw [h]; rfl, by rw [h], by rw [h], by rw [h]; rfl, by rw [h]; rfl, by rw [h]; rfl,
    by rw [h]; rfl, by rw [h], by rw [h]; rfl⟩
  funext l e v
  unfold State.offerTx
  rw [href, h]
  rfl

end Sys2Proof.Machine

/-! PROOF SUPPORT. The outcomes of a reservation that passes: SETTING with an Offer, SETTING, or LOCKED at once (R81, R84,
R87, R88). -/

namespace Sys2Proof.Machine

theorem Ev.takes_of_route {s : State} {b : Ev} {rest : List Request} {c r : Nat} {res : List FlankRec} {t : State} {x : Ctx}
    (h : s.Reserved t c r res x) (hbefore : b.before = s) (hrequests : b.s.requests = rest) (helem : b.s.elem = t.elem)
    (hroute : b.s.route = t.route) : Ev.Takes s b rest r res t where
  before := hbefore
  requests := hrequests
  elem := helem
  flank := by rw [hroute, h.route, if_pos rfl]; rfl
  groups := by rw [hroute, h.route, if_pos rfl]; rfl
  wasCleared := by rw [hroute, h.route, if_pos rfl]; rfl
  others k hk := by rw [hroute, h.route, if_neg hk]

/-- The reservation of an EXIT route. -/
theorem Ev.reserved_exit {s : State} {rest : List Request} {c r : Nat} {res : List FlankRec} {l : Link} (h : agreeing res)
    (hk : s.routeKind r = some .exit) (hl : s.elemLink (s.rrow r).dest = some l) :
    ∃ b : Ev, ((⟨s, s.dequeued rest, [], []⟩ : Ev).reserved c r res).completeIfDone c = b ∧
      Ev.Takes s b rest r res ((s.dequeued rest).reserving c r res) ∧ (b.s.route r).state = .setting ∧
      (b.s.transOf (s.rrow r).dest).state = .offerSent ∧
      (b.s.transOf (s.rrow r).dest).reference = some (s.offerRef l + 1) ∧ b.s.offerRef l = s.offerRef l + 1 ∧
      b.s.ctx c = some { route := r, awaited := s.awaitedPoints r res, reply := true
                         offerRef := some (s.offerRef l + 1) } ∧
      b.s.ctxTimer c = some (s.startTimer (timerSetting (1000 * siteReplyTime s.store))) ∧
      b.s.sent = s.sent ++ [⟨l.port, .transaction (s.offerTx l (s.rrow r).dest (s.rrow r).variant)⟩] := by
  obtain ⟨hreserved, hframe⟩ := s.dequeued_reserving rest c r res h
  have offered := Ev.offering_offered (Ev.reserving s rest c r res) l c r (s.rrow r).dest (s.rrow r).variant
    (s.awaitedPoints r res)
  obtain ⟨hrequests, href, htx, hstart, hstore, hsent, -⟩ := State.reads_of_reserving hframe
  obtain ⟨-, -, href', htx', hstart', hstore', hsent', -⟩ := s.dequeued_border rest
  rw [Ev.reserved_of_exit h hk hl, Ev.completeIfDone_of_waiting offered.ctx (.inr rfl)]
  generalize Ev.offering _ l c r (s.rrow r).dest (s.rrow r).variant (s.awaitedPoints r res) = b at *
  obtain ⟨obefore, oelem, oroute, orequests, oref, osent, ⟨otrans, oreference⟩, octx, otimer⟩ := offered
  simp only [Ev.reserving, href, href', htx, htx', hstart, hstart', hstore, hstore', hsent, hsent', hrequests] at *
  refine ⟨b, rfl, Ev.takes_of_route hreserved obefore orequests oelem oroute, ?_, otrans, oreference, oref, octx, otimer,
    osent⟩
  rw [oroute, hreserved.route, if_pos rfl]
  rfl

/-- The reservation of a route whose points are not yet all in position. -/
theorem Ev.reserved_waiting {s : State} {rest : List Request} {c r : Nat} {res : List FlankRec} (h : agreeing res)
    (hk : s.routeKind r ≠ some .exit ∨ s.elemLink (s.rrow r).dest = none) (ha : s.awaitedPoints r res ≠ []) :
    ∃ b : Ev, ((⟨s, s.dequeued rest, [], []⟩ : Ev).reserved c r res).completeIfDone c = b ∧
      Ev.Takes s b rest r res ((s.dequeued rest).reserving c r res) ∧ (b.s.route r).state = .setting ∧
      (b.s.route r).context = some c ∧
      b.s.ctx c = some { route := r, awaited := s.awaitedPoints r res, reply := false, offerRef := none } := by
  obtain ⟨hreserved, hframe⟩ := s.dequeued_reserving rest c r res h
  obtain ⟨hrequests, -⟩ := State.reads_of_reserving hframe
  rw [Ev.reserved_of_other h hk, Ev.completeIfDone_of_waiting (a := Ev.reserving s rest c r res) hreserved.ctx (.inl ha)]
  refine ⟨_, rfl, Ev.takes_of_route hreserved rfl hrequests rfl rfl, ?_, ?_, hreserved.ctx⟩
  · have hr := hreserved.route r
    rw [if_pos rfl] at hr
    exact congrArg RouteRec.state hr
  · have hr := hreserved.route r
    rw [if_pos rfl] at hr
    exact congrArg RouteRec.context hr

/-- The reservation of a route whose points are all in position: it completes at once. -/
theorem Ev.reserved_done {s : State} {rest : List Request} {c r : Nat} {res : List FlankRec} (h : agreeing res)
    (hk : s.routeKind r ≠ some .exit ∨ s.elemLink (s.rrow r).dest = none) (ha : s.awaitedPoints r res = []) :
    ∃ b : Ev, ((⟨s, s.dequeued rest, [], []⟩ : Ev).reserved c r res).completeIfDone c = b ∧
      Ev.Takes s b rest r res ((s.dequeued rest).reserving c r res) ∧ (b.s.route r).state = .locked ∧
      (b.s.route r).context = none ∧ (b.s.route r).clearWanted = true ∧ b.s.ctx c = none ∧
      Ev.accepts ⟨s, s, [], []⟩ b r := by
  obtain ⟨hreserved, hframe⟩ := s.dequeued_reserving rest c r res h
  have completed := Ev.completeCtx_completed (a := Ev.reserving s rest c r res) hreserved.ctx
  obtain ⟨hrequests, -, -, -, -, hsent, hentry, hpoint, hdesig, htrans, htrans', hrow⟩ := State.reads_of_reserving hframe
  obtain ⟨-, -, -, -, -, -, hsent', hentry', hpoint', hdesig', hto', htrans''⟩ := s.dequeued_border rest
  rw [Ev.reserved_of_other h hk, Ev.completeIfDone_of_done (a := Ev.reserving s rest c r res) hreserved.ctx ha rfl]
  generalize (Ev.reserving s rest c r res).completeCtx c = b at *
  obtain ⟨cbefore, cctx, -, -, croute, caccepts, celem, crequests⟩ := completed
  have hself : (Ev.reserving s rest c r res).s.route r = (s.route r).taken c (s.rrow r).groups res :=
    (hreserved.route r).trans (if_pos rfl)
  have hb := croute r
  rw [if_pos rfl, hself] at hb
  refine ⟨b, rfl, ?_, by rw [hb], by rw [hb], by rw [hb], cctx, ?_⟩
  · exact {
      before := cbefore
      requests := crequests.trans hrequests
      elem := celem
      flank := by rw [hb]; rfl
      groups := by rw [hb]; rfl
      wasCleared := by rw [hb]; rfl
      others := fun k hk => ((croute k).trans (if_neg hk)).trans ((hreserved.route k).trans (if_neg hk)) }
  · unfold Ev.accepts at caccepts ⊢
    have horigin : ((s.dequeued rest).reserving c r res).route r = (s.route r).taken c (s.rrow r).groups res := hself
    simp only [Ev.reserving, hentry, hentry', hpoint, hpoint', hdesig, hdesig', htrans, hto', htrans', htrans'', hsent,
      hsent', hrow, horigin] at caccepts
    exact caccepts

end Sys2Proof.Machine

section

open Sys2Proof Sys2Proof.Machine

theorem reservationTakesRoute : Claims.ReservationTakesRoute := by
  intro s q rest c res hm hr hc ho
  have hagree := State.reservationOutcome_agreeing ho
  obtain ⟨hreserved, -⟩ := s.dequeued_reserving rest c q.route res hagree
  refine ⟨_, exec_reservation_of_ok hm hr hc ho, ?_⟩
  have leaves {b : Ev} (takes : Ev.Takes s b rest q.route res ((s.dequeued rest).reserving c q.route res)) :=
    And.intro takes.before <| And.intro takes.requests <| And.intro (takes.elem ▸ hreserved.locked) <|
      And.intro (takes.elem ▸ hreserved.unlocked) <| And.intro (takes.elem ▸ hreserved.claims) <|
      And.intro (takes.elem ▸ hreserved.claimed) <| And.intro (takes.elem ▸ hreserved.unclaimed) <|
      And.intro (takes.elem ▸ hreserved.commanded) <| And.intro (takes.elem ▸ hreserved.uncommanded) <|
      And.intro takes.flank <| And.intro takes.groups takes.wasCleared
  by_cases hexit : ∃ l, s.routeKind q.route = some .exit ∧ s.elemLink (s.rrow q.route).dest = some l
  · obtain ⟨l, hk, hl⟩ := hexit
    obtain ⟨b, hb, takes, hstate, htrans, hreference, href, hctx, htimer, hsent⟩ :=
      Ev.reserved_exit (rest := rest) (c := c) hagree hk hl
    rw [hb]
    obtain ⟨h1, h2, h3, h4, h5, h6, h7, h8, h9, h10, h11, h12⟩ := leaves takes
    refine ⟨h1, h2, h3, h4, h5, h6, h7, h8, h9, h10, h11, h12, fun l' _ hl' => ?_, fun hn => absurd hk hn,
      fun hn => absurd hk hn, takes.others⟩
    obtain rfl : l = l' := Option.some.inj (hl.symm.trans hl')
    exact ⟨hstate, htrans, hreference, href, hctx, htimer, hsent⟩
  · have hother : s.routeKind q.route ≠ some .exit ∨ s.elemLink (s.rrow q.route).dest = none := by
      by_cases hk : s.routeKind q.route = some .exit
      · refine .inr (Option.eq_none_iff_forall_ne_some.2 (fun l hl => hexit ⟨l, hk, hl⟩))
      · exact .inl hk
    by_cases ha : s.awaitedPoints q.route res = []
    · obtain ⟨b, hb, takes, hstate, hcontext, hclear, hctx, haccept, hsilent⟩ :=
        Ev.reserved_done (rest := rest) (c := c) hagree hother ha
      rw [hb]
      obtain ⟨h1, h2, h3, h4, h5, h6, h7, h8, h9, h10, h11, h12⟩ := leaves takes
      exact ⟨h1, h2, h3, h4, h5, h6, h7, h8, h9, h10, h11, h12, fun l hk hl => absurd ⟨l, hk, hl⟩ hexit,
        fun _ hne => absurd ha hne, fun _ _ => ⟨hstate, hcontext, hclear, hctx, haccept, fun h => (hsilent h).2⟩,
        takes.others⟩
    · obtain ⟨b, hb, takes, hstate, hcontext, hctx⟩ := Ev.reserved_waiting (rest := rest) (c := c) hagree hother ha
      rw [hb]
      obtain ⟨h1, h2, h3, h4, h5, h6, h7, h8, h9, h10, h11, h12⟩ := leaves takes
      exact ⟨h1, h2, h3, h4, h5, h6, h7, h8, h9, h10, h11, h12, fun l hk hl => absurd ⟨l, hk, hl⟩ hexit,
        fun _ _ => ⟨hstate, hcontext, hctx⟩, fun _ hn => absurd hn ha, takes.others⟩

/-- Settles O46: the reservation by its three outcomes, and the completion of any context. -/
theorem reservationLocksRoute : Obligations.ReservationLocksRoute := ⟨reservationTakesRoute, completedEntryIsAccepted⟩

end

/-! PROOF SUPPORT. The requests on single elements (R20, R21, R22), and the Command Telegrams on change (R11). -/

namespace Sys2Proof.Machine

/-! ### Command Telegrams on change -/

theorem mem_insertFec_self (a : Nat) (l : List Nat) : a ∈ insertFec a l := by
  induction l with
  | nil => exact List.mem_singleton_self a
  | cons b t ih =>
    unfold insertFec
    split
    · exact List.mem_cons_self ..
    · split
      · next h => exact h ▸ List.mem_cons_self ..
      · exact List.mem_cons_of_mem _ ih

theorem mem_insertFec_of_mem {a b : Nat} {l : List Nat} (h : a ∈ l) : a ∈ insertFec b l := by
  induction l with
  | nil => exact absurd h List.not_mem_nil
  | cons c t ih =>
    unfold insertFec
    split
    · exact List.mem_cons_of_mem _ h
    · split
      · exact h
      · rcases List.mem_cons.1 h with rfl | h
        · exact List.mem_cons_self ..
        · exact List.mem_cons_of_mem _ (ih h)

theorem State.mem_fecsOf (s : State) {e : Nat} {es : List Nat} (h : e ∈ es) : (s.erow e).addr ∈ s.fecsOf es := by
  have hfold (es : List Nat) (acc : List Nat) (ha : e ∈ es ∨ (s.erow e).addr ∈ acc) :
      (s.erow e).addr ∈ es.foldl (fun acc e => insertFec (s.erow e).addr acc) acc := by
    induction es generalizing acc with
    | nil => exact ha.resolve_left List.not_mem_nil
    | cons k es ih =>
      refine ih _ ?_
      rcases ha with ha | ha
      · rcases List.mem_cons.1 ha with rfl | ha
        · exact .inr (mem_insertFec_self _ _)
        · exact .inl ha
      · exact .inr (mem_insertFec_of_mem ha)
  exact hfold es [] (.inl h)

theorem State.foldl_sendCommand (fs : List Nat) (s : State) : (fs.foldl State.sendCommand s).sent =
    s.sent ++ fs.map (fun f => ⟨.f, .command f (s.commandCodes f)⟩) := by
  induction fs generalizing s with
  | nil => exact (List.append_nil _).symm
  | cons f fs ih =>
    rw [List.foldl_cons, ih (s.sendCommand f), List.map_cons]
    exact List.append_assoc s.sent [_] _

theorem State.sent_of_reports {t u : State} (h : t = u.withReportsOf t) : t.sent = u.sent := by
  have k := congrArg State.sent h
  exact k

theorem Ev.settle_sendChanges (ev : Ev) : ev.settle.sent = ev.handToSetting.monitor.sendChanges.s.sent := by
  generalize hu : ev.handToSetting.monitor.sendChanges = u
  have ht := ((changedElems u.before u.s).foldl Ev.handToCpc u).commit_reports
  rw [foldl_handToCpc_s] at ht
  have he : ev.settle = ((changedElems u.before u.s).foldl Ev.handToCpc u).commit := by
    unfold Ev.settle
    dsimp only
    rw [hu]
  rw [he]
  exact State.sent_of_reports ht

/-- The FECs with a changed commanded state at the end of an event. -/
def Ev.changedFecs (ev : Ev) : List Nat :=
  ev.s.fecsOf (ev.s.elemIndices.filter (commandChanged ev.before ev.s))

theorem Ev.sendChanges_telegrams (ev : Ev) : ev.sendChanges.s.sent =
    ev.s.sent ++ ev.changedFecs.map (fun f => ⟨.f, .command f (ev.s.commandCodes f)⟩) :=
  State.foldl_sendCommand _ _

theorem State.codes_of_reports {t u : State} (h : t = { u.withReportsOf t with sent := t.sent }) :
    t.commandCodes = u.commandCodes ∧ t.erow = u.erow := by
  rw [h]
  exact ⟨rfl, rfl⟩

/-- A changed command of a POINT or SIGNAL goes down at once with the four slots of its FEC (R11). -/
theorem Ev.settle_commands (ev : Ev) {e : Nat} (he : e ∈ ev.handed.elemIndices)
    (hc : commandChanged ev.handToSetting.monitor.before ev.handed e = true) :
    ⟨.f, .command (ev.settle.erow e).addr (ev.settle.commandCodes (ev.settle.erow e).addr)⟩ ∈
      ev.settle.sent.drop ev.s.sent.length := by
  obtain ⟨hcodes, herow⟩ := State.codes_of_reports ev.settle_handed
  obtain ⟨xs, hxs⟩ := (ev.handToSetting_handedOn.via (Ev.monitor_handedOn _)).sent
  have hmem : (ev.handed.erow e).addr ∈ ev.handToSetting.monitor.changedFecs :=
    State.mem_fecsOf _ (List.mem_filter.2 ⟨he, hc⟩)
  rw [hcodes, herow, Ev.settle_sendChanges, Ev.sendChanges_telegrams, ← hxs, List.append_assoc, List.drop_left]
  exact List.mem_append_right _ (List.mem_map.2 ⟨_, hmem, rfl⟩)

end Sys2Proof.Machine

/-! PROOF SUPPORT. The operations of an event read neither the state before the event nor the reports raised so far: they
do the same in an event that began at another state and has raised more reports. So each of them keeps the state before the
event (R6, R113). -/

namespace Sys2Proof.Machine

/-- The event as one that began at another state and had raised some reports before. -/
def Ev.shift (ev : Ev) (b : State) (xs : List Offer) : Ev :=
  { before := b, s := ev.s, offers := xs ++ ev.offers, reached := ev.reached }

/-- The operation reads neither the state before the event nor its reports. -/
def Ev.Oblivious (f : Ev → Ev) : Prop := ∀ ev b xs, f (ev.shift b xs) = (f ev).shift b xs

@[simp] theorem Ev.shift_fields (ev : Ev) (b : State) (xs : List Offer) : (ev.shift b xs).s = ev.s ∧
    (ev.shift b xs).before = b ∧ (ev.shift b xs).offers = xs ++ ev.offers ∧ (ev.shift b xs).reached = ev.reached :=
  ⟨rfl, rfl, rfl, rfl⟩

theorem Ev.Oblivious.before {f : Ev → Ev} (h : Ev.Oblivious f) (ev : Ev) : (f ev).before = ev.before :=
  (congrArg Ev.before (h ev ev.before []) :)

theorem Ev.Oblivious.comp {f g : Ev → Ev} (hg : Ev.Oblivious g) (hf : Ev.Oblivious f) :
    Ev.Oblivious (fun ev => g (f ev)) := fun ev b xs => by
  show g (f (ev.shift b xs)) = _
  rw [hf, hg]

theorem Ev.Oblivious.id : Ev.Oblivious (fun ev => ev) := fun _ _ _ => rfl

/-- An operation that chooses by the state. -/
theorem Ev.Oblivious.choose {α : Type} {g : Ev → Ev} (read : State → α) (f : α → Ev → Ev) (h : ∀ a, Ev.Oblivious (f a))
    (hg : ∀ ev, g ev = f (read ev.s) ev) : Ev.Oblivious g := fun ev b xs => by
  rw [hg, hg]
  exact h (read ev.s) ev b xs

theorem Ev.Oblivious.foldl {α : Type} {f : Ev → α → Ev} (h : ∀ a, Ev.Oblivious (fun ev => f ev a)) (l : List α) :
    Ev.Oblivious (fun ev => l.foldl f ev) := by
  induction l with
  | nil => exact Ev.Oblivious.id
  | cons a l ih => exact Ev.Oblivious.comp (g := fun ev => l.foldl f ev) ih (h a)

theorem Ev.Oblivious.part {f : Ev → Ev} (h : Ev.Oblivious f) (q : Sequence) (k : Nat) :
    Ev.Oblivious (fun ev => ev.part q k f) := fun ev b xs => by
  have he : f ⟨b, ev.s, [], ev.reached⟩ = (f { ev with offers := [] }).shift b [] := h { ev with offers := [] } b []
  simp only [Ev.part, Ev.shift, List.append_assoc, List.nil_append] at he ⊢
  rw [he]

theorem Ev.Oblivious.inOrder (q : Sequence) (fs : List (Ev → Ev)) (h : ∀ f ∈ fs, Ev.Oblivious f) (k : Nat) :
    Ev.Oblivious (fun ev => ev.inOrder q k fs) := by
  induction fs generalizing k with
  | nil => exact Ev.Oblivious.id
  | cons f fs ih =>
    exact Ev.Oblivious.comp (g := fun ev => ev.inOrder q (k + 1) fs)
      (ih (fun f hf => h f (List.mem_cons_of_mem _ hf)) (k + 1)) ((h f (List.mem_cons_self ..)).part q k)

/-! ### The operations of every block -/

theorem Ev.oblivious_on (f : State → State) : Ev.Oblivious (fun ev => ev.on f) := fun _ _ _ => rfl

/-- A change of the state, and a report raised on it, that both read the state alone. -/
theorem Ev.oblivious_raising {g : Ev → Ev} (f : State → State) (x : State → Src) (r : State → Report)
    (hg : ∀ ev, g ev = (ev.on f).raise (x ev.s) (r ev.s)) : Ev.Oblivious g := fun ev b xs => by
  rw [hg, hg]
  simp only [Ev.raise, Ev.on, Ev.shift, List.append_assoc]

theorem Ev.oblivious_routeReport (r : Nat) (w : RouteRec) (x : RouteEvent) :
    Ev.Oblivious (fun ev => ev.routeReport r w x) :=
  Ev.oblivious_raising (fun s => s) (fun _ => _) (fun s => .route
    { route := r, key := s.routeKeyOf r, event := x, origin := w.origin, deferred := w.deferred,
      clamped := w.clamped }) fun _ => rfl

theorem Ev.oblivious_routeEvent (r : Nat) (x : RouteEvent) : Ev.Oblivious (fun ev => ev.routeEvent r x) :=
  .choose (fun s => s.route r) (fun w ev => ev.routeReport r w x) (fun w => Ev.oblivious_routeReport r w x) fun _ => rfl

theorem Ev.oblivious_fault (x : Src) (f : FaultReport) : Ev.Oblivious (fun ev => ev.fault x f) :=
  Ev.oblivious_raising (fun s => s.latch f.cls) (fun _ => x) (fun _ => .fault f) fun _ => rfl

theorem Ev.oblivious_changeTrans (l : Link) (e : Nat) (t : TransRec) (ref : Byte) (x : BorderCause) (y : Option Byte) :
    Ev.Oblivious (fun ev => ev.changeTrans l e t ref x y) :=
  Ev.oblivious_raising (fun s => s.setTrans e t) (fun _ => .border l) (fun s => .border
    { designation := s.desig e, link := l, point := s.pointByte e, before := some (s.transOf e).state,
      after := some t.state, reference := ref, cause := x, reason := y }) fun _ => rfl

theorem Ev.oblivious_sendBorder (l : Link) (tx : BorderTx) : Ev.Oblivious (fun ev => ev.sendBorder l tx) :=
  Ev.oblivious_on _

theorem Ev.oblivious_unchangedReport (l : Link) (e : Option Nat) (tx : BorderTx) :
    Ev.Oblivious (fun ev => ev.unchangedReport l e tx) :=
  Ev.oblivious_raising (fun s => s) (fun _ => .border l) (fun s => .border
    { designation := match e with | some i => s.desig i | none => 0, link := l, point := tx.point,
      before := e.map (fun i => (s.transOf i).state), after := e.map (fun i => (s.transOf i).state),
      reference := tx.reference, cause := .sent tx.kind, reason := some tx.reason }) fun _ => rfl

theorem Ev.oblivious_sendDecline (l : Link) (e : Option Nat) (p ref : Byte) (x : Reason) :
    Ev.Oblivious (fun ev => ev.sendDecline l e p ref x) :=
  (Ev.oblivious_unchangedReport l e (plainTx .decline p ref x.code)).comp (Ev.oblivious_sendBorder l _)

theorem Ev.oblivious_sendTooLate (l : Link) (e : Nat) (p ref : Byte) :
    Ev.Oblivious (fun ev => ev.sendTooLate l e p ref) :=
  (Ev.oblivious_unchangedReport l (some e) (plainTx .withdraw p ref Reason.borderTimeout.code)).comp
    (Ev.oblivious_sendBorder l _)

theorem Ev.oblivious_sendWithdraw (l : Link) (e : Nat) (ref : Byte) (x : Reason) :
    Ev.Oblivious (fun ev => ev.sendWithdraw l e ref x) :=
  (Ev.oblivious_changeTrans l e {} ref (.sent .withdraw) (some x.code)).comp
    (Ev.oblivious_on (fun s => s.send l.port (.transaction (plainTx .withdraw (s.pointByte e) ref x.code))))

theorem Ev.oblivious_sendHandback (l : Link) (e : Nat) (ref : Byte) :
    Ev.Oblivious (fun ev => ev.sendHandback l e ref) :=
  (Ev.oblivious_changeTrans l e {} ref (.sent .handback) none).comp
    (Ev.oblivious_on (fun s => s.send l.port (.transaction (plainTx .handback (s.pointByte e) ref 0))))

theorem Ev.oblivious_sendAccept (l : Link) (e : Nat) (ref : Byte) : Ev.Oblivious (fun ev => ev.sendAccept l e ref) :=
  .choose (fun s => plainTx .accept (s.pointByte e) ref 0) (fun tx ev => (ev.sendBorder l tx).changeTrans l e
    { state := .inHeld, reference := some ref, lastSent := some tx } ref (.sent .accept) none)
    (fun tx => (Ev.oblivious_changeTrans l e { state := .inHeld, reference := some ref, lastSent := some tx } ref
      (.sent .accept) none).comp (Ev.oblivious_sendBorder l tx)) fun _ => rfl

/-! ### Full release, timed waits, contexts -/

theorem Ev.oblivious_borderRelease (r : Nat) (entered : Bool) : Ev.Oblivious (fun ev => ev.borderRelease r entered) := by
  refine .choose (fun s => (s.routeKind r, (s.rrow r).dest, s.elemLink (s.rrow r).dest, s.transOf (s.rrow r).dest))
    (fun a ev => if a.1 = some .exit then
        match a.2.2.1, a.2.2.2.state, a.2.2.2.reference with
        | some l, .heldOut, some ref =>
          if entered then ev.sendHandback l a.2.1 ref else ev.sendWithdraw l a.2.1 ref .cancelled
        | _, _, _ => ev
      else ev) (fun a => ?_) fun _ => rfl
  split
  · split
    · split
      · exact Ev.oblivious_sendHandback _ _ _
      · exact Ev.oblivious_sendWithdraw _ _ _ _
    · exact .id
  · exact .id

theorem Ev.oblivious_fullRelease (r : Nat) : Ev.Oblivious (fun ev => ev.fullRelease r) := by
  refine .choose (fun s => s.route r) (fun w ev =>
    (ev.on (fun s => ((s.unlockAll r).dropClaims r (fun _ => true)).freeRequest r)).inOrder (.release r) 1
      [fun ev => ev.borderRelease r (w.groups.any GroupState.entered),
       fun ev => (ev.on (fun s => s.setRoute r {})).routeReport r { w with deferred := false, clamped := false }
        .released]) (fun w => ?_) fun _ => rfl
  refine (Ev.Oblivious.inOrder _ _ (List.forall_mem_cons.2 ⟨?_, List.forall_mem_singleton.2 ?_⟩) _).comp
    (Ev.oblivious_on _)
  · exact Ev.oblivious_borderRelease _ _
  · exact (Ev.oblivious_routeReport _ _ _).comp (Ev.oblivious_on _)

theorem Ev.oblivious_toDanger (r : Nat) : Ev.Oblivious (fun ev => ev.toDanger r) := Ev.oblivious_on _

theorem Ev.oblivious_timedWait (r : Nat) (p : Purpose) (x : RouteEvent) :
    Ev.Oblivious (fun ev => ev.timedWait r p x) := by
  refine .choose (fun s => s.timerRequest r p) (fun a ev => match a with
    | (s, .immediate) => (ev.on (fun _ => s)).fullRelease r
    | (s, _) => (ev.on (fun _ => s)).routeEvent r x) (fun a => ?_) fun _ => rfl
  rcases a with ⟨s, answer⟩
  cases answer
  case immediate => exact (Ev.oblivious_fullRelease r).comp (Ev.oblivious_on _)
  all_goals exact (Ev.oblivious_routeEvent r x).comp (Ev.oblivious_on _)

theorem Ev.oblivious_declineOrigin (r : Nat) (o : Option Origin) (x : Reason) :
    Ev.Oblivious (fun ev => ev.declineOrigin r o x) := by
  refine .choose (fun s => ((s.rrow r).start, s.pointByte (s.rrow r).start)) (fun a ev => match o with
    | some (.neighbour l ref) => ev.sendDecline l (some a.1) a.2 ref x
    | _ => ev) (fun a => ?_) fun _ => rfl
  split
  · exact Ev.oblivious_sendDecline _ _ _ _ _
  · exact .id

theorem Ev.oblivious_withdrawOffer (o : Option Byte) (dest : Nat) (x : Reason) :
    Ev.Oblivious (fun ev => ev.withdrawOffer o dest x) := by
  refine .choose (fun s => (s.elemLink dest, (s.transOf dest).state)) (fun a ev => match o, a.1 with
    | some ref, some l =>
      match a.2 with
      | .offerSent | .heldOut => ev.sendWithdraw l dest ref x
      | _ => ev
    | _, _ => ev) (fun a => ?_) fun _ => rfl
  split
  · split
    · exact Ev.oblivious_sendWithdraw _ _ _ _
    · exact Ev.oblivious_sendWithdraw _ _ _ _
    · exact .id
  · exact .id

theorem Ev.oblivious_refuse (r : Nat) (w : RouteRec) (x : Reason) (named : Nat) :
    Ev.Oblivious (fun ev => ev.refuse r w x named) :=
  Ev.Oblivious.inOrder _ _ (List.forall_mem_cons.2
    ⟨.choose (fun s => s.desig named) (fun d ev => ev.routeReport r w (.refused x d))
      (fun d => Ev.oblivious_routeReport r w (.refused x d)) fun _ => rfl,
     List.forall_mem_singleton.2 (Ev.oblivious_declineOrigin r w.origin x)⟩) 0

theorem Ev.oblivious_failCtx (c : Nat) (x : Reason) (named : Nat) (d : Bool) :
    Ev.Oblivious (fun ev => ev.failCtx c x named d) := fun ev b xs => by
  change (ev.shift b xs).failCtx c x named d = (ev.failCtx c x named d).shift b xs
  cases hc : ev.s.ctx c with
  | none =>
    rw [Ev.failCtx_of_free ev x named d hc, Ev.failCtx_of_free (ev.shift b xs) x named d hc]
  | some y =>
    have hrelease := (Ev.oblivious_on (fun s => s.releaseSetting c y.route)).comp
      (Ev.oblivious_withdrawOffer y.offerRef (ev.s.rrow y.route).dest x)
    have hreport : Ev.Oblivious (fun a => a.routeReport y.route (ev.s.route y.route) (.refused x (a.s.desig named))) :=
      .choose (fun s => s.desig named) (fun d a => a.routeReport y.route (ev.s.route y.route) (.refused x d))
        (fun d => Ev.oblivious_routeReport _ _ _) fun _ => rfl
    rw [Ev.failCtx_eq ev x named d hc, Ev.failCtx_eq (ev.shift b xs) x named d hc]
    cases d
    · exact hreport.comp hrelease ev b xs
    · exact (Ev.oblivious_refuse y.route (ev.s.route y.route) x named).comp hrelease ev b xs

theorem Ev.oblivious_accepting (r : Nat) : Ev.Oblivious (fun ev => ev.accepting r) := by
  refine .choose (fun s => (s.isEntry r, (s.route r).origin, (s.rrow r).start)) (fun a ev => match a.1, a.2.1 with
    | true, some (.neighbour l ref) => ev.sendAccept l a.2.2 ref
    | _, _ => ev) (fun a => ?_) fun _ => rfl
  split
  · exact Ev.oblivious_sendAccept _ _ _
  · exact .id

theorem Ev.oblivious_reach (r : Nat) : Ev.Oblivious (fun ev => ev.reach r) := fun _ _ _ => rfl

theorem Ev.oblivious_completeCtx (c : Nat) : Ev.Oblivious (fun ev => ev.completeCtx c) := fun ev b xs => by
  cases hc : ev.s.ctx c with
  | none =>
    have hfree (a : Ev) (ha : a.s.ctx c = none) : a.completeCtx c = a := by
      unfold Ev.completeCtx
      rw [ha]
    exact (hfree (ev.shift b xs) hc).trans (congrArg (Ev.shift · b xs) (hfree ev hc).symm)
  | some y =>
    have h := (Ev.oblivious_accepting y.route).comp ((Ev.oblivious_reach y.route).comp
      ((Ev.oblivious_routeEvent y.route .locked).comp (Ev.oblivious_on (fun s => s.completing c y.route))))
    exact (Ev.completeCtx_eq (ev := ev.shift b xs) hc).trans
      ((h ev b xs).trans (congrArg (Ev.shift · b xs) (Ev.completeCtx_eq hc).symm))

theorem Ev.oblivious_completeIfDone (c : Nat) : Ev.Oblivious (fun ev => ev.completeIfDone c) := by
  refine .choose (fun s => s.ctx c) (fun a ev => match a with
    | some x => if x.awaited.isEmpty && !x.reply then ev.completeCtx c else ev
    | none => ev) (fun a => ?_) fun _ => rfl
  split
  · split
    · exact Ev.oblivious_completeCtx c
    · exact .id
  · exact .id

theorem Ev.oblivious_handToCtx (changed : List Nat) (c : Nat) : Ev.Oblivious (fun ev => ev.handToCtx changed c) := by
  refine .choose (fun s => (s.ctx c, fun e => s.holds e .fault, s.atSide)) (fun a ev => match a.1 with
    | none => ev
    | some x =>
      match (x.awaited.filter (fun y => changed.contains y.elem)).find? (fun y => a.2.1 y.elem) with
      | some y => ev.failCtx c .pointFailed y.elem true
      | none =>
        let rest := x.awaited.filter (fun y => !(changed.contains y.elem && a.2.2 y.elem y.side))
        if rest.length = x.awaited.length then ev
        else (ev.on (fun s => s.setCtx c (some { x with awaited := rest }))).completeIfDone c) (fun a => ?_) fun _ => rfl
  split
  · exact .id
  · split
    · exact Ev.oblivious_failCtx _ _ _ _
    · dsimp only
      split
      · exact .id
      · exact (Ev.oblivious_completeIfDone c).comp (Ev.oblivious_on _)

end Sys2Proof.Machine

/-! PROOF SUPPORT. What the handling of a border telegram keeps: the link records, and every telegram sent before
(R34, R141). -/

namespace Sys2Proof.Machine

/-- The operation reads neither the state before the event nor its reports, writes no link record, and takes back no
telegram. -/
structure Ev.Plain (f : Ev → Ev) : Prop where
  shift : Ev.Oblivious f
  link : ∀ ev, (f ev).s.link = ev.s.link
  sent : ∀ ev, ev.s.sent <+: (f ev).s.sent

theorem Ev.Plain.comp {f g : Ev → Ev} (hg : Ev.Plain g) (hf : Ev.Plain f) : Ev.Plain (fun ev => g (f ev)) :=
  ⟨hg.shift.comp hf.shift, fun ev => (hg.link (f ev)).trans (hf.link ev), fun ev => (hf.sent ev).trans (hg.sent (f ev))⟩

theorem Ev.Plain.id : Ev.Plain (fun ev => ev) := ⟨.id, fun _ => rfl, fun _ => List.prefix_rfl⟩

theorem Ev.Plain.choose {α : Type} {g : Ev → Ev} (read : State → α) (f : α → Ev → Ev) (h : ∀ a, Ev.Plain (f a))
    (hg : ∀ ev, g ev = f (read ev.s) ev) : Ev.Plain g where
  shift := .choose read f (fun a => (h a).shift) hg
  link ev := by
    rw [hg]
    exact (h (read ev.s)).link ev
  sent ev := by
    rw [hg]
    exact (h (read ev.s)).sent ev

theorem Ev.Plain.part {f : Ev → Ev} (h : Ev.Plain f) (q : Sequence) (k : Nat) : Ev.Plain (fun ev => ev.part q k f) :=
  ⟨h.shift.part q k, fun ev => h.link { ev with offers := [] }, fun ev => h.sent { ev with offers := [] }⟩

theorem Ev.Plain.inOrder (q : Sequence) (fs : List (Ev → Ev)) (h : ∀ f ∈ fs, Ev.Plain f) (k : Nat) :
    Ev.Plain (fun ev => ev.inOrder q k fs) := by
  induction fs generalizing k with
  | nil => exact Ev.Plain.id
  | cons f fs ih =>
    exact Ev.Plain.comp (g := fun ev => ev.inOrder q (k + 1) fs)
      (ih (fun f hf => h f (List.mem_cons_of_mem _ hf)) (k + 1)) ((h f (List.mem_cons_self ..)).part q k)

theorem HandedOn.link {u t : State} (h : HandedOn u t) : t.link = u.link := by
  rw [h.frame]
  rfl

theorem Ev.Plain.of_handed {f : Ev → Ev} (h : Ev.Oblivious f) (k : ∀ ev, HandedOn ev.s (f ev).s) : Ev.Plain f :=
  ⟨h, fun ev => (k ev).link, fun ev => (k ev).sent⟩

/-- A change of the state that writes no link record and sends nothing. -/
theorem Ev.plain_on (f : State → State) (h : ∀ s, (f s).link = s.link ∧ (f s).sent = s.sent) :
    Ev.Plain (fun ev => ev.on f) :=
  ⟨Ev.oblivious_on f, fun ev => (h ev.s).1, fun ev => (h ev.s).2.symm ▸ List.prefix_rfl⟩

theorem Ev.plain_sendBorder (l : Link) (tx : BorderTx) : Ev.Plain (fun ev => ev.sendBorder l tx) :=
  .of_handed (Ev.oblivious_sendBorder l tx) fun ev => ev.sendBorder_handedOn l tx

theorem Ev.plain_changeTrans (l : Link) (e : Nat) (t : TransRec) (ref : Byte) (x : BorderCause) (y : Option Byte) :
    Ev.Plain (fun ev => ev.changeTrans l e t ref x y) :=
  .of_handed (Ev.oblivious_changeTrans l e t ref x y) fun ev => ev.changeTrans_handedOn l e t ref x y

theorem Ev.plain_sendDecline (l : Link) (e : Option Nat) (p ref : Byte) (x : Reason) :
    Ev.Plain (fun ev => ev.sendDecline l e p ref x) :=
  .of_handed (Ev.oblivious_sendDecline l e p ref x) fun ev => ev.sendDecline_handedOn l e p ref x

theorem Ev.plain_sendTooLate (l : Link) (e : Nat) (p ref : Byte) : Ev.Plain (fun ev => ev.sendTooLate l e p ref) :=
  .of_handed (Ev.oblivious_sendTooLate l e p ref) fun ev => ev.sendTooLate_handedOn l e p ref

theorem Ev.plain_failCtx (c : Nat) (x : Reason) (named : Nat) (d : Bool) :
    Ev.Plain (fun ev => ev.failCtx c x named d) :=
  .of_handed (Ev.oblivious_failCtx c x named d) fun ev => ev.failCtx_handedOn c x named d

theorem Ev.plain_completeIfDone (c : Nat) : Ev.Plain (fun ev => ev.completeIfDone c) :=
  .of_handed (Ev.oblivious_completeIfDone c) fun ev => ev.completeIfDone_handedOn c

theorem Ev.plain_fullRelease (r : Nat) : Ev.Plain (fun ev => ev.fullRelease r) :=
  .of_handed (Ev.oblivious_fullRelease r) fun ev => ev.fullRelease_handedOn r

theorem Ev.plain_toDanger (r : Nat) : Ev.Plain (fun ev => ev.toDanger r) :=
  .of_handed (Ev.oblivious_toDanger r) fun ev => ev.toDanger_handedOn r

theorem Ev.plain_fault (x : Src) (f : FaultReport) : Ev.Plain (fun ev => ev.fault x f) :=
  .of_handed (Ev.oblivious_fault x f) fun ev => ev.s.latch_handedOn f.cls

theorem Ev.plain_freeBorder (r e : Nat) : Ev.Plain (fun ev => ev.on (fun s => s.freeBorder r e)) :=
  .of_handed (Ev.oblivious_on _) fun ev => (ev.s.freeBorder_tame r e).handed

theorem Ev.plain_routeReport (r : Nat) (w : RouteRec) (x : RouteEvent) : Ev.Plain (fun ev => ev.routeReport r w x) :=
  .of_handed (Ev.oblivious_routeReport r w x) fun ev => .refl ev.s

theorem Ev.plain_declineOrigin (r : Nat) (o : Option Origin) (x : Reason) :
    Ev.Plain (fun ev => ev.declineOrigin r o x) :=
  .of_handed (Ev.oblivious_declineOrigin r o x) fun ev => ev.declineOrigin_handedOn r o x

theorem Ev.plain_cancelQueued (r : Nat) (x : Reason) (decline : Bool) :
    Ev.Plain (fun ev => ev.cancelQueued r x decline) := by
  refine .choose (fun s => s.route r) (fun w ev =>
    let ev := ev.on (fun s => { s.setRoute r {} with requests := s.requests.filter (fun q => q.route != r) })
    let ev := ev.routeReport r w (.cancelled x)
    if decline then ev.declineOrigin r w.origin x else ev) (fun w => ?_) fun _ => rfl
  have hrep := (Ev.plain_routeReport r w (.cancelled x)).comp (Ev.plain_on (fun s =>
    { s.setRoute r {} with requests := s.requests.filter (fun q => q.route != r) }) (fun _ => ⟨rfl, rfl⟩))
  cases decline
  · exact hrep
  · exact (Ev.plain_declineOrigin r w.origin x).comp hrep

/-! ### The border telegrams -/

theorem Ev.plain_queueRoute (r : Nat) (o : Origin) : Ev.Plain (fun ev => ev.queueRoute r o) :=
  (Ev.Plain.choose (fun s => s.route r) (fun w ev => ev.routeReport r w .queued)
      (fun w => Ev.plain_routeReport r w .queued) fun _ => rfl).comp (Ev.plain_on (fun s =>
    { s.modRoute r (fun w => { w with state := .queued, origin := some o }) with
      requests := s.requests ++ [⟨r, o⟩] }) (fun _ => ⟨rfl, rfl⟩))

theorem Ev.plain_entryRequest (l : Link) (e r : Nat) (tx : BorderTx) :
    Ev.Plain (fun ev => ev.entryRequest l e r tx) := by
  refine .choose (fun s => s) (fun s ev =>
    if (s.entryRequests e).any (fun q => (s.route q).origin == some (.neighbour l tx.reference)) then ev
    else if !(s.entryRequests e).isEmpty then ev.sendDecline l (some e) tx.point tx.reference .borderBusy
    else if (s.route r).state ≠ .free then ev.sendDecline l (some e) tx.point tx.reference .busy
    else if 8 ≤ s.requests.length then ev.sendDecline l (some e) tx.point tx.reference .busy
    else ev.queueRoute r (.neighbour l tx.reference)) (fun s => ?_) fun _ => rfl
  split
  · exact .id
  · split
    · exact Ev.plain_sendDecline _ _ _ _ _
    · split
      · exact Ev.plain_sendDecline _ _ _ _ _
      · split
        · exact Ev.plain_sendDecline _ _ _ _ _
        · exact Ev.plain_queueRoute _ _

theorem Ev.plain_offerIdle (l : Link) (e : Nat) (tx : BorderTx) : Ev.Plain (fun ev => ev.offerIdle l e tx) := by
  refine .choose (fun s => s.offerRoute e tx) (fun a ev => match a with
    | some r => ev.entryRequest l e r tx
    | none => ev.sendDecline l (some e) tx.point tx.reference .unknownRoute) (fun a => ?_) fun _ => rfl
  cases a
  · exact Ev.plain_sendDecline _ _ _ _ _
  · exact Ev.plain_entryRequest _ _ _ _

theorem Ev.plain_crossing (l : Link) (e : Nat) (tx : BorderTx) : Ev.Plain (fun ev => ev.crossing l e tx) := by
  refine .choose (fun s => (siteSeniority s.store l, s.ctxAwaiting e)) (fun a ev =>
    if a.1 = 1 then ev.sendDecline l (some e) tx.point tx.reference .crossing
    else ev.inOrder .crossing 0
      [fun ev => match a.2 with
        | some c => ev.failCtx c .borderCrossing e true
        | none => ev,
       fun ev => ev.offerIdle l e tx]) (fun a => ?_) fun _ => rfl
  split
  · exact Ev.plain_sendDecline _ _ _ _ _
  · refine Ev.Plain.inOrder _ _ (List.forall_mem_cons.2 ⟨?_, List.forall_mem_singleton.2 ?_⟩) _
    · cases a.2
      · exact .id
      · exact Ev.plain_failCtx _ _ _ _
    · exact Ev.plain_offerIdle _ _ _

theorem Ev.plain_offer (l : Link) (tx : BorderTx) : Ev.Plain (fun ev => ev.offer l tx) := by
  refine .choose (fun s => (s.borderElem l tx.point.toNat, s.mode, s.transOf)) (fun a ev =>
    if a.2.1 ≠ .operational then ev.sendDecline l a.1 tx.point tx.reference .notReady
    else
      match a.1 with
      | none => ev.sendDecline l none tx.point tx.reference .unknownRoute
      | some e =>
        match (a.2.2 e).state with
        | .offerSent => ev.crossing l e tx
        | .heldOut => ev.sendDecline l (some e) tx.point tx.reference .borderBusy
        | .inHeld =>
          if (a.2.2 e).reference = some tx.reference then ev.sendBorder l (plainTx .accept tx.point tx.reference 0)
          else ev.sendDecline l (some e) tx.point tx.reference .borderBusy
        | .idle => ev.offerIdle l e tx) (fun a => ?_) fun _ => rfl
  split
  · exact Ev.plain_sendDecline _ _ _ _ _
  · split
    · exact Ev.plain_sendDecline _ _ _ _ _
    · split
      · exact Ev.plain_crossing _ _ _
      · exact Ev.plain_sendDecline _ _ _ _ _
      · split
        · exact Ev.plain_sendBorder _ _
        · exact Ev.plain_sendDecline _ _ _ _ _
      · exact Ev.plain_offerIdle _ _ _

theorem Ev.plain_onBorder (l : Link) (tx : BorderTx) (f : Ev → Nat → Ev)
    (h : ∀ e, Ev.Plain (fun ev => f ev e)) : Ev.Plain (fun ev => ev.onBorder l tx (f ev)) := by
  refine .choose (fun s => s.borderElem l tx.point.toNat) (fun a ev => match a with
    | some e => f ev e
    | none => ev) (fun a => ?_) fun _ => rfl
  cases a
  · exact .id
  · exact h _

theorem Ev.plain_replyArrived (c : Nat) : Ev.Plain (fun ev => ev.replyArrived c) := by
  refine .choose (fun s => s.ctx c) (fun a ev => match a with
    | some x => (ev.on (fun s => (s.setCtx c (some { x with reply := false })).setCtxTimer c none)).completeIfDone c
    | none => ev) (fun a => ?_) fun _ => rfl
  cases a
  · exact .id
  · exact (Ev.plain_completeIfDone c).comp (Ev.plain_on _ (fun _ => ⟨rfl, rfl⟩))

/-- What a Decline or an Accept does of the context that awaits the reply. -/
theorem Ev.plain_awaiting (e : Nat) (f : Nat → Ev → Ev) (h : ∀ c, Ev.Plain (f c)) {g : Ev → Ev}
    (hg : ∀ ev, g ev = match ev.s.ctxAwaiting e with
      | some c => f c ev
      | none => ev) : Ev.Plain g := by
  refine .choose (fun s => s.ctxAwaiting e) (fun a ev => match a with
    | some c => f c ev
    | none => ev) (fun a => ?_) hg
  cases a
  · exact .id
  · exact h _

theorem Ev.plain_accept (l : Link) (tx : BorderTx) (e : Nat) : Ev.Plain (fun ev => ev.accept l tx e) := by
  refine .choose (fun s => s.transOf e) (fun t ev =>
    match t.state, decide (t.reference = some tx.reference) with
    | .offerSent, true =>
      let ev := ev.changeTrans l e { t with state := .heldOut } tx.reference (.received .accept) none
      match ev.s.ctxAwaiting e with
      | some c => ev.replyArrived c
      | none => ev
    | .heldOut, true => ev
    | _, _ => ev.sendTooLate l e tx.point tx.reference) (fun t => ?_) fun _ => rfl
  split
  · exact (Ev.plain_awaiting e (fun c ev => ev.replyArrived c) Ev.plain_replyArrived fun _ => rfl).comp
      (Ev.plain_changeTrans l e { t with state := .heldOut } tx.reference (.received .accept) none)
  · exact .id
  · exact Ev.plain_sendTooLate _ _ _ _

theorem Ev.plain_decline (l : Link) (tx : BorderTx) (e : Nat) : Ev.Plain (fun ev => ev.decline l tx e) := by
  refine .choose (fun s => s.transOf e) (fun t ev =>
    if t.state = .offerSent ∧ t.reference = some tx.reference then
      let ev := ev.changeTrans l e {} tx.reference (.received .decline) (some tx.reason)
      match ev.s.ctxAwaiting e with
      | some c => ev.failCtx c .borderDeclined e true
      | none => ev
    else ev) (fun t => ?_) fun _ => rfl
  split
  · exact (Ev.plain_awaiting e (fun c ev => ev.failCtx c .borderDeclined e true)
      (fun c => Ev.plain_failCtx c _ _ _) fun _ => rfl).comp
      (Ev.plain_changeTrans l e {} tx.reference (.received .decline) (some tx.reason))
  · exact .id

theorem Ev.plain_withdrawHeld (l : Link) (e r : Nat) (ref : Byte) :
    Ev.Plain (fun ev => ev.withdrawHeld l e r ref) := by
  refine .choose (fun s => (s.route r, s.desig e)) (fun a ev =>
    if a.1.groups.any GroupState.entered then
      (ev.on (fun s => s.freeBorder r e)).fault (.border l)
        { cls := .borderFault, designation := a.2, port := none, route := none, cause := lowByte ref }
    else if a.1.state = .cleared then (ev.toDanger r).fullRelease r
    else ev.fullRelease r) (fun a => ?_) fun _ => rfl
  split
  · exact (Ev.plain_fault _ _).comp (Ev.plain_freeBorder _ _)
  · split
    · exact (Ev.plain_fullRelease r).comp (Ev.plain_toDanger r)
    · exact Ev.plain_fullRelease r

theorem Ev.plain_withdrawRequest (l : Link) (e : Nat) (ref : Byte) (d : Bool) :
    Ev.Plain (fun ev => ev.withdrawRequest l e ref d) := by
  refine .choose (fun s => (s.entryUnder l e ref (fun x => x == .queued || (d && x == .setting)), s.route, s.ctxOf))
    (fun a ev => match a.1 with
      | some r =>
        if (a.2.1 r).state = .queued then ev.cancelQueued r .cancelled false
        else
          match a.2.2 r with
          | some c => ev.failCtx c .cancelled e false
          | none => ev
      | none => ev) (fun a => ?_) fun _ => rfl
  split
  · split
    · exact Ev.plain_cancelQueued _ _ _
    · split
      · exact Ev.plain_failCtx _ _ _ _
      · exact .id
  · exact .id

theorem Ev.plain_withdraw (l : Link) (tx : BorderTx) (e : Nat) : Ev.Plain (fun ev => ev.withdraw l tx e) := by
  refine .choose (fun s => (s.transOf e, s.entryUnder l e tx.reference (fun _ => true))) (fun a ev =>
    match a.1.state with
    | .inHeld =>
      if a.1.reference = some tx.reference then
        ev.inOrder .withdrawn 0
          [fun ev => ev.changeTrans l e {} tx.reference (.received .withdraw) (some tx.reason),
           fun ev => match a.2 with
            | some r => ev.withdrawHeld l e r tx.reference
            | none => ev]
      else ev
    | .idle => ev.withdrawRequest l e tx.reference true
    | .offerSent => ev.withdrawRequest l e tx.reference false
    | .heldOut => ev) (fun a => ?_) fun _ => rfl
  split
  · split
    · refine Ev.Plain.inOrder _ _ (List.forall_mem_cons.2 ⟨?_, List.forall_mem_singleton.2 ?_⟩) _
      · exact Ev.plain_changeTrans _ _ _ _ _ _
      · cases a.2
        · exact .id
        · exact Ev.plain_withdrawHeld _ _ _ _
    · exact .id
  · exact Ev.plain_withdrawRequest _ _ _ _
  · exact Ev.plain_withdrawRequest _ _ _ _
  · exact .id

theorem Ev.plain_handback (l : Link) (tx : BorderTx) (e : Nat) : Ev.Plain (fun ev => ev.handback l tx e) := by
  refine .choose (fun s => (s.transOf e, s.entryUnder l e tx.reference (fun _ => true))) (fun a ev =>
    if a.1.state = .inHeld ∧ a.1.reference = some tx.reference then
      let ev := ev.changeTrans l e {} tx.reference (.received .handback) none
      match a.2 with
      | some r => ev.on (fun s => s.freeBorder r e)
      | none => ev
    else ev) (fun a => ?_) fun _ => rfl
  have hidle := Ev.plain_changeTrans l e {} tx.reference (.received .handback) none
  split
  · cases a.2
    · exact hidle
    · exact (Ev.plain_freeBorder _ _).comp hidle
  · exact .id

/-- The entries of a Border Status write element records only. -/
theorem State.foldl_applyEntry_frame (l : Link) (xs : List EntryIn) (s : State) :
    xs.foldl (State.applyEntry l) s = { s with elems := (xs.foldl (State.applyEntry l) s).elems } := by
  have hone (s : State) (x : EntryIn) : s.applyEntry l x = { s with elems := (s.applyEntry l x).elems } := by
    unfold State.applyEntry
    split <;> rfl
  induction xs generalizing s with
  | nil => rfl
  | cons x xs ih =>
    have h := ih (s.applyEntry l x)
    rw [hone s x] at h
    rw [List.foldl_cons, hone s x]
    exact h

theorem State.foldl_applyEntry_leaves (l : Link) (xs : List EntryIn) (s : State) :
    (xs.foldl (State.applyEntry l) s).link = s.link ∧ (xs.foldl (State.applyEntry l) s).sent = s.sent := by
  rw [State.foldl_applyEntry_frame]
  exact ⟨rfl, rfl⟩

theorem Ev.plain_borderStatus (l : Link) (p : List Byte) : Ev.Plain (fun ev => ev.borderStatus l p) := by
  refine .choose (fun s => s.link l.port) (fun a ev => if a.state = .up then
    ev.on (fun s => (statusEntries p).foldl (State.applyEntry l) s) else ev) (fun a => ?_) fun _ => rfl
  split
  · exact Ev.plain_on _ (fun s => State.foldl_applyEntry_leaves l (statusEntries p) s)
  · exact .id

end Sys2Proof.Machine

/-! PROOF. The telegram that brings a B-link UP (R34, R35, R37, R153), and the Border Status (R30, R139). -/

namespace Sys2Proof.Machine

theorem State.foldl_resend (l : Link) (es : List Nat) (s u : State) (h : u.transOf = s.transOf) :
    es.foldl (fun s e => s.resend l e) u = { u with sent := u.sent ++ es.filterMap (fun e =>
      if (s.transOf e).state = .idle then none
      else ((s.transOf e).lastSent).map (fun tx => ⟨l.port, .transaction tx⟩)) } := by
  induction es generalizing u with
  | nil => simp
  | cons e es ih =>
    have hone : u.resend l e = { u with sent := u.sent ++ ((if (s.transOf e).state = .idle then none
        else ((s.transOf e).lastSent).map (fun tx => (⟨l.port, .transaction tx⟩ : Sent))).toList) } := by
      unfold State.resend
      rw [h]
      split
      · simp
      · cases (s.transOf e).lastSent <;> simp [State.send]
    rw [List.foldl_cons, ih _ (by rw [hone]; exact h), hone, List.filterMap_cons, List.append_assoc]
    cases (if (s.transOf e).state = .idle then none
      else ((s.transOf e).lastSent).map (fun tx => (⟨l.port, .transaction tx⟩ : Sent))) <;> rfl

/-- The state that a telegram which brings a B-link UP meets: the link UP and its first telegrams sent (R35, R153). -/
def State.broughtUp (s : State) (l : Link) : State :=
  { s.setLink l.port { state := .up, count := 0, timer := some (s.deadlineAfter (s.linkTimeout l.port)) } with
    sent := s.sent ++
      ⟨l.port, .borderStatus (((s.taken l.port).linkElems l).map (s.taken l.port).statusEntry)⟩ :: s.resends l }

theorem State.taken_of_comesUp {s : State} {p : Port} (h : s.comesUp p = true) : s.taken p =
    { s.setLink p { state := .up, count := 0, timer := some (s.deadlineAfter (s.linkTimeout p)) } with
      events := s.events + 1 } := by
  have hup : (s.link p).state ≠ .up := fun hu => by simp [State.comesUp, hu] at h
  simp [State.taken, State.heardOn, h, hup]

theorem State.broughtUp_link (s : State) (l : Link) : (s.broughtUp l).link l.port =
    { state := .up, count := 0, timer := some (s.deadlineAfter (s.linkTimeout l.port)) } := by cases l <;> rfl

theorem State.broughtUp_comesUp (s : State) (l : Link) : (s.broughtUp l).comesUp l.port = false := by
  simp [State.comesUp, s.broughtUp_link l]

theorem State.broughtUp_deadline (s : State) (l : Link) :
    (s.broughtUp l).deadlineAfter ((s.broughtUp l).linkTimeout l.port) = s.deadlineAfter (s.linkTimeout l.port) := by
  cases l <;> rfl

theorem State.broughtUp_taken {s : State} {l : Link} (h : s.comesUp l.port = true) :
    (s.broughtUp l).taken l.port = { s.taken l.port with sent := (s.broughtUp l).sent } := by
  have hrec : (s.broughtUp l).heardOn l.port = (s.broughtUp l).link l.port := by
    rw [State.heardOn, s.broughtUp_comesUp, s.broughtUp_deadline, s.broughtUp_link]
    rfl
  have hsame : (s.broughtUp l).setLink l.port ((s.broughtUp l).link l.port) = s.broughtUp l := by cases l <;> rfl
  rw [State.taken, hrec, hsame, State.taken_of_comesUp h]
  cases l <;> rfl

/-- The state in which the BL has recovered its link is that in which a link that was UP all along has counted the
telegram. -/
theorem State.borderLinkUp_taken {s : State} {l : Link} (h : s.comesUp l.port = true) :
    (s.taken l.port).borderLinkUp l = (s.broughtUp l).taken l.port := by
  have helems : (s.taken l.port).linkElems = s.linkElems := by cases l <;> rfl
  have hsent : (s.taken l.port).sent = s.sent := by cases l <;> rfl
  have htrans : (s.taken l.port).transOf = s.transOf := by cases l <;> rfl
  rw [State.broughtUp_taken h, State.borderLinkUp, helems, State.foldl_resend l (s.linkElems l) (s.taken l.port)
    ((s.taken l.port).sendBorderStatus l) rfl, htrans, State.sendBorderStatus, State.sent_send, hsent, List.append_assoc]
  rfl

/-- The link watch counts the telegram that brings a B-link UP, and the BL recovers the link (R34, R35, R153). -/
theorem Ev.validTelegram_broughtUp {s : State} {l : Link} (h : s.comesUp l.port = true) :
    (Ev.start s).validTelegram l.port =
      ⟨s, (s.broughtUp l).taken l.port, [⟨.linkUp, .fault (linkReport l.port .up)⟩], []⟩ := by
  rw [← State.borderLinkUp_taken h, State.taken_of_comesUp h]
  simp only [State.comesUp, Bool.and_eq_true, bne_iff_ne, ne_eq, Bool.not_eq_true', decide_eq_false_iff_not] at h
  obtain ⟨hup, hcount⟩ := h
  have hl : (Ev.start s).s.link l.port = s.link l.port := by cases l <;> rfl
  unfold Ev.validTelegram
  dsimp only
  rw [hl, if_neg hup, if_neg hcount]
  cases l <;> rfl

/-- A border telegram of a link, by its kind: the BL's handling of it once the link watch has counted it. -/
theorem exec_of_fitsLink {i : Instr} {l : Link} (h : fitsLink i l = true) :
    ∃ body, Ev.Plain body ∧ ∀ s, exec i s = .next (takeBorder l true body s) := by
  have hbody {k : Link} {fits : Bool} {body : Ev → Ev} (hb : Ev.Plain body)
      (hi : ∀ s, exec i s = .next (takeBorder k fits body s)) (hk : (k == l && fits) = true) :
      ∃ body, Ev.Plain body ∧ ∀ s, exec i s = .next (takeBorder l true body s) := by
    obtain ⟨hk, hf⟩ := Bool.and_eq_true_iff.1 hk
    exact ⟨body, hb, beq_iff_eq.1 hk ▸ hf ▸ hi⟩
  cases i
  case borderStatus k p => exact hbody (Ev.plain_borderStatus k p) (fun _ => rfl) h
  case offer k p => exact hbody (Ev.plain_offer k (borderTxOf .offer p)) (fun _ => rfl) h
  case accept k p =>
    exact hbody (Ev.plain_onBorder k _ (fun ev => ev.accept k (borderTxOf .accept p)) (Ev.plain_accept k _))
      (fun _ => rfl) h
  case decline k p =>
    exact hbody (Ev.plain_onBorder k _ (fun ev => ev.decline k (borderTxOf .decline p)) (Ev.plain_decline k _))
      (fun _ => rfl) h
  case withdraw k p =>
    exact hbody (Ev.plain_onBorder k _ (fun ev => ev.withdraw k (borderTxOf .withdraw p)) (Ev.plain_withdraw k _))
      (fun _ => rfl) h
  case handback k p =>
    exact hbody (Ev.plain_onBorder k _ (fun ev => ev.handback k (borderTxOf .handback p)) (Ev.plain_handback k _))
      (fun _ => rfl) h
  all_goals exact absurd h Bool.false_ne_true

/-- A telegram brings its B-link UP, and is then handled as it is where the link is UP (R34, R35, R153). -/
theorem takeBorder_broughtUp {s : State} {l : Link} {body : Ev → Ev} (hb : Ev.Plain body) (h : s.comesUp l.port = true) :
    ∃ ev ev' : Ev, takeBorder l true body s = ev.settle ∧ takeBorder l true body (s.broughtUp l) = ev'.settle ∧
      ev'.before = s.broughtUp l ∧ ev = ev'.shift s [⟨.linkUp, .fault (linkReport l.port .up)⟩] ∧
      ev'.s.link l.port = (s.broughtUp l).link l.port ∧ (s.broughtUp l).sent <+: ev'.s.sent := by
  let up : Ev := ⟨s.broughtUp l, (s.broughtUp l).taken l.port, [], []⟩
  have hlink : up.s.link l.port = (s.broughtUp l).link l.port := by
    have htaken : ((s.broughtUp l).taken l.port).link l.port = (s.broughtUp l).heardOn l.port := by cases l <;> rfl
    refine htaken.trans ?_
    rw [State.heardOn, s.broughtUp_comesUp, s.broughtUp_deadline, s.broughtUp_link]
    rfl
  have hsent : up.s.sent = (s.broughtUp l).sent := by cases l <;> rfl
  refine ⟨body (up.shift s [⟨.linkUp, .fault (linkReport l.port .up)⟩]), body up, ?_, ?_, hb.shift.before up,
    hb.shift up s _, (congrFun (hb.link up) _).trans hlink, hsent ▸ hb.sent up⟩
  · rw [takeBorder, if_pos rfl, Ev.validTelegram_broughtUp h]
    rfl
  · rw [takeBorder, if_pos rfl, Ev.validTelegram_eq _ _ (.inr (s.broughtUp_comesUp l)), State.linkOffers,
      s.broughtUp_comesUp]
    rfl

/-! ### Border Status -/

/-- What an entry writes to the neighbour side of its element (R30, R139). -/
def EntryIn.write (x : EntryIn) (r : Elem) : Elem :=
  { r with nbr := x.home, nbrEntryProven := x.entryProven, nbrOnwardClear := x.onwardClear, heard := true }

theorem State.borderElem_slot {s : State} {l : Link} {n e : Nat} (h : s.borderElem l n = some e) : (s.erow e).slot = n := by
  have hp := List.find?_some h
  simp only [Bool.and_eq_true, beq_iff_eq] at hp
  obtain ⟨-, hslot⟩ := hp
  exact hslot

theorem State.applyEntry_elem (s : State) (l : Link) (x : EntryIn) (e : Nat) : (s.applyEntry l x).elem e =
    if s.borderElem l x.point = some e then x.write (s.elem e) else s.elem e := by
  unfold State.applyEntry
  split
  · next k hk =>
    rw [State.elem_modElem, hk]
    by_cases he : e = k
    · rw [if_pos he, if_pos (congrArg some he.symm), he]
      rfl
    · rw [if_neg he, if_neg (fun h => he (Option.some.inj h).symm)]
  · next hk => rw [hk, if_neg (by simp)]

theorem State.foldl_applyEntry_borderElem (l : Link) (xs : List EntryIn) (s : State) :
    (xs.foldl (State.applyEntry l) s).borderElem = s.borderElem := by
  rw [State.foldl_applyEntry_frame]
  rfl

/-- An element that no entry names is not touched. -/
theorem State.foldl_applyEntry_of_unnamed (l : Link) (xs : List EntryIn) (s : State) {e : Nat}
    (h : ∀ x ∈ xs, s.borderElem l x.point ≠ some e) : (xs.foldl (State.applyEntry l) s).elem e = s.elem e := by
  induction xs generalizing s with
  | nil => rfl
  | cons x xs ih =>
    have hb : (s.applyEntry l x).borderElem = s.borderElem := State.foldl_applyEntry_borderElem l [x] s
    rw [List.foldl_cons, ih _ (fun y hy => hb ▸ h y (List.mem_cons_of_mem _ hy)), State.applyEntry_elem,
      if_neg (h x (List.mem_cons_self ..))]

/-- What entries write is overwritten by a later entry. -/
theorem State.write_foldl_applyEntry (l : Link) (xs : List EntryIn) (s : State) (x : EntryIn) (e : Nat) :
    x.write ((xs.foldl (State.applyEntry l) s).elem e) = x.write (s.elem e) := by
  induction xs generalizing s with
  | nil => rfl
  | cons y ys ih =>
    rw [List.foldl_cons, ih, State.applyEntry_elem]
    split <;> rfl

/-- The last entry of a number stands (R139). -/
theorem State.foldl_applyEntry_last (l : Link) {xs pre post : List EntryIn} {x : EntryIn} (s : State) {e : Nat}
    (hxs : xs = pre ++ x :: post) (hlast : ∀ y ∈ post, y.point ≠ x.point) (he : s.borderElem l x.point = some e) :
    (xs.foldl (State.applyEntry l) s).elem e = x.write (s.elem e) := by
  have hborder := State.foldl_applyEntry_borderElem l pre s
  have hpost : ∀ y ∈ post, ((pre.foldl (State.applyEntry l) s).applyEntry l x).borderElem l y.point ≠ some e := by
    intro y hy hye
    have hx := State.foldl_applyEntry_borderElem l [x] (pre.foldl (State.applyEntry l) s)
    rw [List.foldl_cons, List.foldl_nil] at hx
    rw [hx, hborder] at hye
    exact hlast y hy ((State.borderElem_slot hye).symm.trans (State.borderElem_slot he))
  rw [hxs, List.foldl_append, List.foldl_cons, State.foldl_applyEntry_of_unnamed l post _ hpost, State.applyEntry_elem,
    hborder, if_pos he, State.write_foldl_applyEntry]

/-- The link watch leaves the link UP at a telegram that finds it UP or brings it UP. -/
theorem Ev.validTelegram_of_up {s : State} {l : Link} (h : (s.link l.port).state = .up ∨ s.comesUp l.port = true) :
    ∃ (sent : List Sent) (offers : List Offer),
      (Ev.start s).validTelegram l.port = ⟨s, { s.taken l.port with sent := sent }, offers, []⟩ ∧ s.sent <+: sent ∧
      ((s.taken l.port).link l.port).state = .up := by
  have hlink : (s.taken l.port).link l.port = s.heardOn l.port := by cases l <;> rfl
  cases hc : s.comesUp l.port with
  | true =>
    refine ⟨(s.broughtUp l).sent, _, (Ev.validTelegram_broughtUp hc).trans (by rw [State.broughtUp_taken hc]),
      List.prefix_append _ _, ?_⟩
    rw [hlink, State.heardOn, hc, if_pos rfl]
  | false =>
    have hup : (s.link l.port).state = .up := h.resolve_right (by simp [hc])
    have hsent : (s.taken l.port).sent = s.sent := by cases l <;> rfl
    exact ⟨(s.taken l.port).sent, _, Ev.validTelegram_eq s l.port (.inr hc), hsent ▸ List.prefix_rfl,
      (s.linkState_taken l.port l.port hc).trans hup⟩

theorem State.reads_of_heard {u v : State} {sent : List Sent} (h : v = { u with sent := sent }) :
    v.elem = u.elem ∧ v.borderElem = u.borderElem ∧ v.link = u.link ∧ v.sent = sent := by
  subst h
  exact ⟨rfl, rfl, rfl, rfl⟩

theorem State.frame_of_applied {s v w t : State} {sent : List Sent} (h : v = { s with sent := sent })
    (k : w = { v with elems := w.elems }) (ht : t = w.withRoutesOf t) : t = s.withRoutesOf t := by
  rw [h] at k
  rw [k] at ht
  exact ht

end Sys2Proof.Machine

section

open Sys2Proof Sys2Proof.Machine

/-- Settles O35: the handling of a telegram reads neither the state before the event nor the reports before its own. -/
theorem borderLinkComesUp : Obligations.BorderLinkComesUp := by
  refine ⟨fun l i s hi hs => ?_, fun l i s hi hs => ?_⟩ <;> obtain ⟨body, hb, he⟩ := exec_of_fitsLink hi <;>
    obtain ⟨ev, ev', h, h', hbefore, rfl, hlink, hsent⟩ := takeBorder_broughtUp hb hs
  · exact ⟨_, (he s).trans (congrArg _ h), rfl, hlink.trans (s.broughtUp_link l), hsent,
      ⟨_, List.mem_cons_self .., rfl, rfl⟩⟩
  · exact ⟨_, ev', (he s).trans (congrArg _ h), rfl, (he (s.broughtUp l)).trans (congrArg _ h'), hbefore, rfl, rfl, rfl⟩

/-- Settles O36: each entry writes the element of its number, and a later one of the number overwrites it. -/
theorem borderStatusApplies : Obligations.BorderStatusApplies := by
  intro l p s hp
  refine ⟨fun hdown hc => ?_, fun hup => ?_⟩
  · have hlink : ((Ev.heard s l).s.link l.port).state ≠ .up := fun h => hdown ((s.linkState_taken l.port l.port hc) ▸ h)
    refine congrArg Host.Outcome.next ((takeBorder_eq_settle l _ _ s hp hc).trans ?_)
    rw [Ev.borderStatus, if_neg hlink, Ev.heard_settle s l hc]
  · obtain ⟨sent, offers, hv, hsent, hlink⟩ := Ev.validTelegram_of_up hup
    obtain ⟨htelem, -, -, -, -, -, -, -, -, htborder, -⟩ := s.taken_reads l.port
    generalize he : ({ s.taken l.port with sent := sent } : State) = v at hv
    obtain ⟨helem, hborder, hvlink, hvsent⟩ := State.reads_of_heard he.symm
    rw [← hvlink] at hlink
    let ev : Ev := ⟨s, (statusEntries p).foldl (State.applyEntry l) v, offers, []⟩
    have hexec : exec (.borderStatus l p) s = .next ev.settle := by
      refine congrArg Host.Outcome.next ?_
      rw [takeBorderStatus, takeBorder, if_pos hp, hv, Ev.borderStatus, if_pos hlink]
      rfl
    have hhanded := ev.settle_handedOn
    have hborder : v.borderElem = s.borderElem := hborder.trans htborder
    have helem : v.elem = s.elem := helem.trans htelem
    refine ⟨_, hexec, fun pre x post e hxs hlast he => ?_, fun e he => ?_, ?_, ?_⟩
    · rw [hhanded.bare e, State.foldl_applyEntry_last l v hxs hlast (hborder ▸ he), helem]
      rfl
    · rw [hhanded.bare e, State.foldl_applyEntry_of_unnamed l _ v (hborder ▸ he), helem]
    · obtain ⟨-, hkept⟩ := State.foldl_applyEntry_leaves l (statusEntries p) v
      have hpre : s.sent <+: ((statusEntries p).foldl (State.applyEntry l) v).sent := by
        rw [hkept, hvsent]
        exact hsent
      exact hpre.trans hhanded.sent
    · exact State.frame_of_applied he.symm (State.foldl_applyEntry_frame l _ v) hhanded.frame

end

/-! PROOF SUPPORT. The hand-on of an event keeps the state before it (R6, R113). -/

namespace Sys2Proof.Machine

theorem Ev.handToCtx_before (ev : Ev) (changed : List Nat) (c : Nat) : (ev.handToCtx changed c).before = ev.before :=
  (Ev.oblivious_handToCtx changed c).before ev

theorem Ev.foldl_before {α : Type} (f : Ev → α → Ev) (h : ∀ ev a, (f ev a).before = ev.before) (l : List α) (ev : Ev) :
    (l.foldl f ev).before = ev.before := by
  induction l generalizing ev with
  | nil => rfl
  | cons a l ih => exact (ih (f ev a)).trans (h ev a)

theorem Ev.inOrder_before (q : Sequence) (fs : List (Ev → Ev)) (h : ∀ f ∈ fs, ∀ ev, (f ev).before = ev.before) (k : Nat)
    (ev : Ev) : (ev.inOrder q k fs).before = ev.before := by
  induction fs generalizing k ev with
  | nil => rfl
  | cons f fs ih =>
    exact (ih (fun f hf => h f (List.mem_cons_of_mem _ hf)) (k + 1) (ev.part q k f)).trans
      (h f (List.mem_cons_self ..) { ev with offers := [] })

theorem Ev.handToSetting_before (ev : Ev) : ev.handToSetting.before = ev.before :=
  Ev.foldl_before _ (fun ev c => ev.handToCtx_before _ c) _ ev

theorem Ev.fullRelease_before (ev : Ev) (r : Nat) : (ev.fullRelease r).before = ev.before :=
  (Ev.oblivious_fullRelease r).before ev

theorem Ev.timedWait_before (ev : Ev) (r : Nat) (p : Purpose) (x : RouteEvent) :
    (ev.timedWait r p x).before = ev.before := (Ev.oblivious_timedWait r p x).before ev

/-! ### The steps of R113 -/

theorem Ev.stepEntry_before (ev : Ev) (r : Nat) : (ev.stepEntry r).before = ev.before := by
  unfold Ev.stepEntry
  dsimp only
  split
  · rfl
  · split
    · split
      · rfl
      · rfl
      · split <;> rfl
      · rfl
    · rfl

theorem Ev.markSection_before (ev : Ev) (r : Nat) (first : Bool) (x : ListRow) :
    (ev.markSection r first x).before = ev.before := by
  unfold Ev.markSection
  dsimp only
  split
  · rfl
  · split <;> rfl

theorem Ev.stepMarks_before (ev : Ev) (r : Nat) : (ev.stepMarks r).before = ev.before := by
  refine Ev.foldl_before _ (fun ev x => ?_) _ ev
  split
  · exact ev.markSection_before r _ x
  · rfl

theorem Ev.endOverlap_before (ev : Ev) (r : Nat) : (ev.endOverlap r).before = ev.before := Ev.fullRelease_before _ r

theorem Ev.foldl_routeEvent_before (ev : Ev) (r : Nat) (gs : List Nat) :
    (gs.foldl (fun ev g => ev.routeEvent r (.groupReleased g)) ev).before = ev.before :=
  Ev.foldl_before (fun ev g => ev.routeEvent r (.groupReleased g)) (fun _ _ => rfl) gs ev

theorem Ev.stepRelease_before (ev : Ev) (r : Nat) : (ev.stepRelease r).before = ev.before := by
  unfold Ev.stepRelease
  dsimp only
  split
  · split
    · rfl
    · split
      · split
        · exact (Ev.endOverlap_before _ r).trans (Ev.foldl_routeEvent_before _ r _)
        · exact (Ev.timedWait_before _ r _ _).trans (Ev.foldl_routeEvent_before _ r _)
      · exact Ev.foldl_routeEvent_before _ r _
  · rfl

theorem Ev.stepClear_before (ev : Ev) (r : Nat) : (ev.stepClear r).before = ev.before := by
  unfold Ev.stepClear
  dsimp only
  split
  · split <;> rfl
  · split <;> rfl
  · split
    · exact ev.fullRelease_before r
    · rfl
  · rfl

theorem Ev.evalRoute_before (ev : Ev) (r : Nat) : (ev.evalRoute r).before = ev.before := by
  unfold Ev.evalRoute
  dsimp only
  refine Ev.inOrder_before _ _ (fun f hf ev => ?_) 1 { ev with offers := [] }
  obtain ⟨step, hstep, rfl⟩ := List.mem_map.1 hf
  have hmem : step ∈ [Ev.stepEntry, Ev.stepMarks, Ev.stepRelease, Ev.stepClear] := by
    split at hstep
    · exact hstep
    · exact List.mem_cons_of_mem _ (List.mem_cons_of_mem _ hstep)
  simp only [List.mem_cons, List.not_mem_nil, or_false] at hmem
  rcases hmem with rfl | rfl | rfl | rfl
  · exact ev.stepEntry_before r
  · exact ev.stepMarks_before r
  · exact ev.stepRelease_before r
  · exact ev.stepClear_before r

theorem Ev.settleAspect_before (ev : Ev) (r : Nat) : (ev.settleAspect r).before = ev.before := by
  unfold Ev.settleAspect
  dsimp only
  split
  · split
    · rfl
    · split <;> rfl
  · rfl

theorem Ev.monitor_before (ev : Ev) : ev.monitor.before = ev.before :=
  (Ev.foldl_before _ (fun ev r => ev.settleAspect_before r) _ _).trans
    (Ev.foldl_before _ (fun ev r => ev.evalRoute_before r) _ ev)

theorem Ev.handed_before (ev : Ev) : ev.handToSetting.monitor.before = ev.before :=
  ev.handToSetting.monitor_before.trans ev.handToSetting_before

end Sys2Proof.Machine

/-! PROOF. The requests on single elements: Move Point (R20), Block Element (R21) and Unblock Element (R22). -/

namespace Sys2Proof.Machine

/-- What a request leaves that is answered and then touches no telegram sent. -/
theorem State.answering_sent {s v t : State} {q : Req} {tag : Half} {code : ReplyCode}
    (h : v.sent = (s.answering q tag code).sent) (ht : v.sent <+: t.sent) :
    s.sent ++ [⟨.c, .reply q.cls.code q.code tag code .none⟩] <+: t.sent := by
  rw [h] at ht
  exact ht

theorem State.blocked_frame {s v t : State} {sent : List Sent} {b : Tbl Bool}
    (hv : v = { s with sent := sent, blocked := b }) (h : t = v.withRoutesOf t) :
    t = { s.withRoutesOf t with blocked := t.blocked } := by
  rw [hv] at h
  have hb := congrArg State.blocked h
  rw [h]
  rfl

/-- The event of a Block Element or Unblock Element that was found. -/
theorem Ev.blocking_settle (s : State) (q : Req) (tag : Half) (e : Nat) (b : Bool) (t : State)
    (ht : t = (((Ev.asked s).answer q tag .accepted).on (fun s => s.setBlocked e b)).settle) :
    (∀ k, t.isBlocked k = if k = e then b else s.isBlocked k) ∧
    s.sent ++ [⟨.c, .reply q.cls.code q.code tag .accepted .none⟩] <+: t.sent ∧
    (∀ k, (t.elem k).bare = (s.elem k).bare) ∧ t = { (s.taken .c).withRoutesOf t with blocked := t.blocked } := by
  have h := Ev.settle_handedOn (((Ev.asked s).answer q tag .accepted).on (fun s => s.setBlocked e b))
  rw [← ht] at h
  change HandedOn ((s.answering q tag .accepted).setBlocked e b) t at h
  obtain ⟨-, -, -, -, hblocked, -⟩ := h.fields
  refine ⟨fun k => ?_, State.answering_sent rfl h.sent, h.bare, State.blocked_frame rfl h.frame⟩
  rw [State.isBlocked, hblocked]
  exact tblGet_set false (s.answering q tag .accepted).blocked e k b

theorem exec_blockElement_of_found {p : List Byte} {s : State} {e : Nat} (tag : Half)
    (ha : s.admits .blockElement p = true) (he : s.payloadElem p = .ok e) : exec (.blockElement tag p) s =
      .next (((Ev.asked s).answer .blockElement tag .accepted).on (fun s => s.setBlocked e true)).settle :=
  congrArg Host.Outcome.next (takeRequest_of_found tag (fun s => s.payloadElem p)
    (fun ev e => (ev.answer .blockElement tag .accepted).on (fun s => s.setBlocked e true)) ha he)

theorem exec_unblockElement_of_found {p : List Byte} {s : State} {e : Nat} (tag : Half)
    (ha : s.admits .unblockElement p = true) (he : s.payloadElem p = .ok e) : exec (.unblockElement tag p) s =
      .next (((Ev.asked s).answer .unblockElement tag .accepted).on (fun s => s.setBlocked e false)).settle :=
  congrArg Host.Outcome.next (takeRequest_of_found tag (fun s => s.payloadElem p)
    (fun ev e => (ev.answer .unblockElement tag .accepted).on (fun s => s.setBlocked e false)) ha he)

theorem exec_movePoint_of_found {p : List Byte} {s : State} {e : Nat} (tag : Half)
    (ha : s.admits .movePoint p = true) (he : s.payloadElem p = .ok e) : exec (.movePoint tag p) s =
      .next (Ev.movePoint tag p (Ev.asked s) e).settle :=
  congrArg Host.Outcome.next (takeRequest_of_found tag (fun s => s.payloadElem p) (Ev.movePoint tag p) ha he)

theorem State.takenC_movePointRefusal (s : State) (e : Nat) :
    (s.taken .c).movePointRefusal e = s.movePointRefusal e := by
  simp only [State.movePointRefusal, State.taken_reads, State.takenC_reads, State.takenC_holds]

/-- A refused Move Point is answered and changes nothing else (R20). -/
theorem Ev.movePoint_of_refused {s : State} {e : Nat} {code : ReplyCode} (tag : Half) (p : List Byte)
    (h : s.movePointRefusal e = some code) :
    (Ev.movePoint tag p (Ev.asked s) e).settle = s.answered .movePoint tag code .none := by
  have h' : (Ev.asked s).s.movePointRefusal e = some code := (s.takenC_movePointRefusal e).trans h
  rw [Ev.movePoint, h']
  exact Ev.asked_answer_settle s .movePoint tag code

theorem Ev.movePoint_of_passed {s : State} {e : Nat} {side : Side} (tag : Half) {p : List Byte}
    (h : s.movePointRefusal e = none) (hp : sideOfCode (byteAt p 2).toNat = some side) :
    Ev.movePoint tag p (Ev.asked s) e = ⟨s, (s.answering .movePoint tag .accepted).commandPoint e side,
      s.linkOffers .c, []⟩ := by
  have h' : (Ev.asked s).s.movePointRefusal e = none := (s.takenC_movePointRefusal e).trans h
  rw [Ev.movePoint, h', hp]
  rfl

theorem Elem.pointCmd_of_bare {x y : Elem} (h : x.bare = y.bare) : x.pointCmd = y.pointCmd := by
  have k := congrArg Elem.pointCmd h
  exact k

/-- The tables that name the elements are not touched by the hand-on of an event. -/
theorem HandedOn.elemTables {u t : State} (h : HandedOn u t) :
    t.elemIndices = u.elemIndices ∧ t.kind = u.kind ∧ t.erow = u.erow := by
  rw [h.frame]
  exact ⟨rfl, rfl, rfl⟩

theorem State.mem_elemIndices_of_kind {s : State} {e : Nat} {k : Kind} (h : s.kind e = some k) : e ∈ s.elemIndices := by
  unfold State.kind at h
  split at h
  · next hlt => exact List.mem_range.2 hlt
  · cases h

/-- An event that changes a point's command sends it at once (R11). -/
theorem Ev.settle_commands_point (ev : Ev) {e : Nat} (hk : ev.s.kind e = some .point)
    (hc : (ev.before.elem e).pointCmd ≠ (ev.s.elem e).pointCmd) :
    ⟨.f, .command (ev.s.erow e).addr (ev.settle.commandCodes (ev.s.erow e).addr)⟩ ∈
      ev.settle.sent.drop ev.s.sent.length := by
  have h : HandedOn ev.s ev.handed := ev.handToSetting_handedOn.via (Ev.monitor_handedOn _)
  obtain ⟨hindices, hkind, -⟩ := h.elemTables
  obtain ⟨-, -, herow⟩ := ev.settle_handedOn.elemTables
  have hchanged : commandChanged ev.handToSetting.monitor.before ev.handed e = true := by
    unfold commandChanged
    rw [hkind, hk, ev.handed_before]
    dsimp only
    rw [Elem.pointCmd_of_bare (h.bare e)]
    exact bne_iff_ne.2 hc
  have hin : e ∈ ev.handed.elemIndices := by
    rw [hindices]
    exact State.mem_elemIndices_of_kind hk
  have hsends := ev.settle_commands hin hchanged
  rw [herow] at hsends
  exact hsends

theorem Ev.commandPoint_sends {s v : State} {e : Nat} {side : Side} (offers : List Offer)
    (hk : v.kind e = some .point) (hc : (s.elem e).pointCmd ≠ side.cmd) {t : State}
    (ht : t = (⟨s, v.commandPoint e side, offers, []⟩ : Ev).settle) :
    ⟨.f, .command (v.erow e).addr (t.commandCodes (v.erow e).addr)⟩ ∈ t.sent.drop v.sent.length := by
  have hcmd : ((v.commandPoint e side).elem e).pointCmd = side.cmd := by rw [State.commandPoint_elem]
  have hreads : (v.commandPoint e side).kind = v.kind ∧ (v.commandPoint e side).erow = v.erow ∧
      (v.commandPoint e side).sent = v.sent := ⟨rfl, rfl, rfl⟩
  generalize v.commandPoint e side = u at ht hcmd hreads
  obtain ⟨hkind, herow, hsent⟩ := hreads
  have h := Ev.settle_commands_point ⟨s, u, offers, []⟩ (e := e) ((congrFun hkind e).trans hk)
    (fun h => hc (h.trans hcmd))
  rw [← ht] at h
  rw [← herow, ← hsent]
  exact h

end Sys2Proof.Machine

section

open Sys2Proof Sys2Proof.Machine

/-- Settles O21: the hand-on of the change touches no blocked mark. -/
theorem blockAndUnblockElement : Obligations.BlockAndUnblockElement := by
  intro tag p s e he
  exact ⟨fun ha => ⟨_, exec_blockElement_of_found tag ha he, Ev.blocking_settle s .blockElement tag e true _ rfl⟩,
    fun ha => ⟨_, exec_unblockElement_of_found tag ha he, Ev.blocking_settle s .unblockElement tag e false _ rfl⟩⟩

/-- The tests of R20 refuse in their order. -/
theorem movePointRefusals : Claims.MovePointRefusals := by
  intro tag p s e ha he
  have hrefused {code : ReplyCode} (h : s.movePointRefusal e = some code) :
      exec (.movePoint tag p) s = .next (s.answered .movePoint tag code .none) :=
    (exec_movePoint_of_found tag ha he).trans (congrArg Host.Outcome.next (Ev.movePoint_of_refused tag p h))
  have hheld (h : (s.elem e).lockOwner ≠ none ∨ (s.elem e).claims ≠ 0) :
      (s.elem e).lockOwner.isSome ∨ (s.elem e).claims ≠ 0 := h.imp_left Option.isSome_iff_ne_none.2
  have hfree (h : ¬ ((s.elem e).lockOwner ≠ none ∨ (s.elem e).claims ≠ 0)) :
      ¬ ((s.elem e).lockOwner.isSome ∨ (s.elem e).claims ≠ 0) :=
    fun k => h (k.imp_left Option.isSome_iff_ne_none.1)
  refine ⟨fun hk => hrefused ?_, fun hk hh => hrefused ?_, fun hk hh hb => hrefused ?_,
    fun hk hh hb ho => hrefused ?_⟩ <;> unfold State.movePointRefusal <;> dsimp only
  · rw [if_pos hk]
  · rw [if_neg (not_not.2 hk), if_pos (hheld hh)]
  · rw [if_neg (not_not.2 hk), if_neg (hfree hh), if_pos hb]
  · rw [if_neg (not_not.2 hk), if_neg (hfree hh), if_neg (by simp [hb]), if_pos ho]

theorem movePointCommandsPoint : Claims.MovePointCommandsPoint := by
  intro tag p s e side ha he hp hk hlock hclaims hblocked hvacant
  have hpass : s.movePointRefusal e = none := by
    simp [State.movePointRefusal, hk, hlock, hclaims, hblocked, hvacant]
  have hev := Ev.movePoint_of_passed tag hpass hp
  have hexec := (exec_movePoint_of_found tag ha he).trans (congrArg (fun ev => Host.Outcome.next (Ev.settle ev)) hev)
  have h := Ev.settle_handedOn ⟨s, (s.answering .movePoint tag .accepted).commandPoint e side, s.linkOffers .c, []⟩
  have hsends := @Ev.commandPoint_sends s (s.answering .movePoint tag .accepted) e side (s.linkOffers .c) hk
  generalize ht : Ev.settle ⟨s, (s.answering .movePoint tag .accepted).commandPoint e side, s.linkOffers .c, []⟩ = t
    at h hexec hsends
  refine ⟨t, hexec, ?_, State.answering_sent rfl h.sent, fun hc => ?_, fun k hke => ?_, h.frame⟩
  · rw [h.bare e, State.commandPoint_elem]
    rfl
  · exact List.drop_subset_drop_left _ (by simp) (hsends hc rfl)
  · rw [h.bare k]
    exact congrArg Elem.bare ((State.elem_modElem _ e k _).trans (if_neg hke))

/-- Settles O20. -/
theorem movePoint : Obligations.MovePoint := ⟨movePointRefusals, movePointCommandsPoint⟩

end

/-! PROOF. A state in which a Status Telegram lets the train into a CLEARED route and the start signal does not stay at
DANGER. Claims.TrainEntersRoute shuts out another route from the same start element only where that route is not FREE before
the telegram. A setting context may name a FREE route in a state that does not meet State.Owned: at the telegram it
completes, and its route becomes LOCKED and CLEARED. -/

namespace Sys2Proof.Machine

/-- Elements: 0 POINT, 1 SECTION, 2 and 3 SIGNALs, on the slots of FEC 1. Routes: 0 MAIN from 2 to 3 over section 1, and 1
MAIN from 2 to 3 with an empty path. -/
def Memory.forked : Memory :=
  [(0, 1), (3, 1), (6, 20), (9, 3), (12, 1), (13, 1), (18, 2), (21, 1), (22, 2), (27, 2), (30, 1), (31, 3),
   (4609, 2), (4611, 3), (4613, 1), (4616, 1), (4626, 1), (4635, 2), (4637, 3), (4639, 1), (4652, 1),
   (14592, 1), (14594, 1), (14596, 1), (130305, 4), (130307, 2)]

/-- Route 0 is CLEARED; a setting context of the FREE route 1 awaits point 0 at LEFT. -/
def State.forked : State :=
  { store := Memory.forked
    tablesValid := true
    mode := .operational
    safeN := true
    elems := [(0, { pointCmd := .left, reported := .moving }), (1, { reported := .vacant })]
    contexts := [(0, some { route := 1, awaited := [⟨0, .left⟩], reply := false, offerRef := none })]
    routes := [(0, { state := .cleared, wasCleared := true, clearWanted := true, groups := [.reserved],
                     aspect := .caution })] }

/-- The telegram's payload: point 0 at LEFT, section 1 OCCUPIED, both signals at DANGER. -/
def forkedPayload : List Byte := [0x01, 0x07, 0x11, 0x22, 0x31, 0x31, 9, 0, 0, 0]

def forkedBytes : List Byte := (Frame.mk 0x10 0x01 0 forkedPayload).bytes

/-- The event of the telegram. -/
def Ev.forked : Ev := ((Ev.start State.forked).validTelegram .f).statusJudged forkedPayload

theorem statusPayload_forked : statusPayload forkedBytes = some forkedPayload := by decide +kernel

theorem exec_forked : exec (.statusTelegram forkedBytes) State.forked = .next Ev.forked.settle := by
  show Host.Outcome.next (takeStatusTelegram forkedBytes State.forked) = _
  unfold takeStatusTelegram
  rw [statusPayload_forked]
  rfl

/-- The train is in route 0, and route 1 shows CAUTION at the signal of both. -/
theorem Ev.forked_handed : Ev.forked.handed.holds 1 .occupied = true ∧ (Ev.forked.handed.route 1).state = .cleared ∧
    (Ev.forked.handed.elem 2).aspect = .caution := by decide +kernel

/-- Route 0 and its first section before the telegram. -/
theorem State.forked_before : State.forked.firstSection 0 = some 1 ∧ State.forked.holds 1 .occupied = false ∧
    (State.forked.route 0).groups = [.reserved] ∧ (State.forked.route 0).state = .cleared ∧
    State.forked.isEntry 0 = false ∧ (State.forked.rrow 0).start = 2 ∧
    ∃ x ∈ State.forked.pathSections 0, x.target = 1 ∧ x.group = 1 := by decide +kernel

theorem State.forked_ctx {c : Nat} {x : Ctx} (h : State.forked.ctx c = some x) : x.route ≠ 0 := by
  have hctx : State.forked.ctx c =
      if c = 0 then some { route := 1, awaited := [⟨0, .left⟩], reply := false, offerRef := none } else none := rfl
  rw [hctx] at h
  split at h
  · rw [← Option.some.inj h]
    exact Nat.one_ne_zero
  · cases h

theorem State.forked_free {q : Nat} (h : q ≠ 0) : (State.forked.route q).state = .free := by
  have hroute : State.forked.route q = if q = 0 then
      { state := .cleared, wasCleared := true, clearWanted := true, groups := [.reserved], aspect := .caution }
    else {} := rfl
  rw [hroute, if_neg h]

end Sys2Proof.Machine

section

open Sys2Proof Sys2Proof.Machine

theorem not_trainEntersRoute : ¬ Claims.TrainEntersRoute := by
  intro h
  obtain ⟨t, ht, hroute⟩ := h forkedBytes State.forked
  obtain rfl := Host.Outcome.next.inj (exec_forked.symm.trans ht)
  obtain ⟨hfirst, hvacant, hgroups, hstate, hentry, hstart, hpath⟩ := State.forked_before
  obtain ⟨hoccupied, -, haspect⟩ := Ev.forked_handed
  have hcleared := hroute 0 1 hfirst hvacant (Ev.forked.settle_holds 1 .occupied ▸ hoccupied)
    (fun c x hx => State.forked_ctx hx) (by rw [hgroups]; simp) (by rw [hgroups]; simp) hpath
    (fun w hw => absurd hw List.not_mem_nil)
  obtain ⟨hentered, -, -⟩ := hcleared
  obtain ⟨⟨-, -, -, -, hdanger⟩, -⟩ := hentered hstate
  have hat := hdanger fun q hq hfree => absurd (State.forked_free hq) hfree
  rw [Claims.atDanger, hentry, hstart, Ev.settle_elem, haspect] at hat
  exact absurd hat (by decide)

/-- Refutes O32: in State.forked a FREE route of the same start signal, named by a setting context, becomes CLEARED at the
telegram, so the signal shows CAUTION behind the train's entry, against Claims.TrainEntersRoute. -/
theorem not_statusTelegram : ¬ Obligations.StatusTelegram := by
  rintro ⟨-, -, -, -, hentry, -⟩
  exact not_trainEntersRoute hentry

end

/-! PROOF. Re-signal of a LOCKED route (R78): the Route Monitor evaluates the route at an event at which no element changes,
so that only its clear conditions count (R113, R115, R116). -/

namespace Sys2Proof.Machine

/-! ### The evaluation of a route at whose elements nothing changes -/

/-- Every condition holds of the elements as before the event, and the route's groups stand as before it. -/
structure Ev.Still (ev : Ev) (r : Nat) : Prop where
  holds : ev.s.holds = ev.before.holds
  store : ev.s.store = ev.before.store
  valid : ev.s.tablesValid = ev.before.tablesValid
  groups : (ev.s.route r).groups = (ev.before.route r).groups

theorem becomesOccupied_of_same {s t : State} (h : t.holds = s.holds) (e : Nat) : becomesOccupied s t e = false := by
  unfold becomesOccupied
  rw [h, Bool.and_not_self]

theorem Ev.stepEntry_of_still {ev : Ev} {r : Nat} (h : ev.Still r) : ev.stepEntry r = ev := by
  unfold Ev.stepEntry
  split
  · rfl
  · next e _ => rw [becomesOccupied_of_same h.holds e, if_neg Bool.false_ne_true]

theorem Ev.stepMarks_of_still {ev : Ev} {r : Nat} (h : ev.Still r) : ev.stepMarks r = ev := by
  have hhit : (ev.s.pathSections r).filter (fun x => becomesOccupied ev.before ev.s x.target) = [] :=
    List.filter_eq_nil_iff.2 fun x _ => by rw [becomesOccupied_of_same h.holds]; exact Bool.false_ne_true
  unfold Ev.stepMarks
  rw [hhit]
  rfl

/-- The release conditions of a group read the holds, the tables and the groups of the route. -/
theorem State.releaseReady_congr {s t : State} {r : Nat} (hholds : t.holds = s.holds) (hstore : t.store = s.store)
    (hvalid : t.tablesValid = s.tablesValid) (hgroups : (t.route r).groups = (s.route r).groups) (g : Nat) :
    t.releaseReady r g = s.releaseReady r g := by
  have hkind : t.kind = s.kind := by
    unfold State.kind State.elemCount State.erow
    rw [hstore, hvalid]
  unfold State.releaseReady State.groupVacant State.pathSections State.isSection State.clearOf State.rrow
    RouteRec.groupState
  rw [hholds, hstore, hgroups, hkind]

theorem Ev.stepRelease_of_still {ev : Ev} {r : Nat} (h : ev.Still r) : ev.stepRelease r = ev := by
  have hgs (l : List Nat) : l.filter (fun g => ev.s.releaseReady r g && !ev.before.releaseReady r g) = [] :=
    List.filter_eq_nil_iff.2 fun g _ => by
      rw [State.releaseReady_congr h.holds h.store h.valid h.groups, Bool.and_not_self]
      exact Bool.false_ne_true
  unfold Ev.stepRelease
  dsimp only
  rw [hgs]
  split <;> rfl

theorem Ev.part_of_still {ev : Ev} {q : Sequence} {k : Nat} {f : Ev → Ev}
    (h : f { ev with offers := [] } = { ev with offers := [] }) : ev.part q k f = ev := by
  unfold Ev.part
  rw [h]
  dsimp only
  rw [List.map_nil, List.append_nil]

theorem Ev.Still.unreported {ev : Ev} {r : Nat} (h : ev.Still r) : ({ ev with offers := [] } : Ev).Still r :=
  ⟨h.holds, h.store, h.valid, h.groups⟩

theorem Ev.inOrder_of_still {ev : Ev} {r : Nat} (h : ev.Still r) (q : Sequence) (k : Nat) (inHand : Bool) :
    (ev.inOrder q k ((if inHand then [Ev.stepEntry, Ev.stepMarks, Ev.stepRelease, Ev.stepClear]
      else [Ev.stepRelease, Ev.stepClear]).map (fun f ev => f ev r))).s =
        (({ ev with offers := [] } : Ev).stepClear r).s := by
  have hentry (k : Nat) : ev.part q k (fun ev => ev.stepEntry r) = ev :=
    Ev.part_of_still (Ev.stepEntry_of_still h.unreported)
  have hmarks (k : Nat) : ev.part q k (fun ev => ev.stepMarks r) = ev :=
    Ev.part_of_still (Ev.stepMarks_of_still h.unreported)
  have hrelease (k : Nat) : ev.part q k (fun ev => ev.stepRelease r) = ev :=
    Ev.part_of_still (Ev.stepRelease_of_still h.unreported)
  cases inHand
  · show ((ev.part q k (fun ev => ev.stepRelease r)).part q (k + 1) (fun ev => ev.stepClear r)).s = _
    rw [hrelease]
    rfl
  · show ((((ev.part q k (fun ev => ev.stepEntry r)).part q (k + 1) (fun ev => ev.stepMarks r)).part q (k + 2)
      (fun ev => ev.stepRelease r)).part q (k + 3) (fun ev => ev.stepClear r)).s = _
    rw [hentry, hmarks, hrelease]
    rfl

/-- The evaluation comes down to step 5 of R113. -/
theorem Ev.evalRoute_of_still {ev : Ev} {r : Nat} (h : ev.Still r) :
    (ev.evalRoute r).s = (({ ev with offers := [] } : Ev).stepClear r).s :=
  Ev.inOrder_of_still h.unreported (.steps r) 1 (ev.before.route r).state.inMonitor

/-! ### Clear conditions -/

/-- The clear conditions read the holds, the tables, the mode and the route's flank records (R115). -/
theorem State.firstFailing_congr {s t : State} {r : Nat} (hholds : t.holds = s.holds) (hstore : t.store = s.store)
    (hvalid : t.tablesValid = s.tablesValid) (hmode : t.mode = s.mode)
    (hflank : (t.route r).flank = (s.route r).flank) : t.firstFailing r = s.firstFailing r := by
  have hkind : t.kind = s.kind := by
    unfold State.kind State.elemCount State.erow
    rw [hstore, hvalid]
  have hrouteKind : t.routeKind = s.routeKind := by
    unfold State.routeKind State.routeCount State.rrow
    rw [hstore, hvalid]
  have hrow : t.rrow = s.rrow := by
    unfold State.rrow
    rw [hstore]
  have hclear : t.entryClear = s.entryClear := by
    funext x
    have hside : t.atSide = s.atSide := by
      funext e p
      cases p
      · exact congrFun (congrFun hholds e) .atLeft
      · exact congrFun (congrFun hholds e) .atRight
    unfold State.entryClear State.clearOf
    rw [hkind, hholds, hside]
  have hproven : t.flankProven = s.flankProven := by
    funext f
    unfold State.flankProven
    rw [hholds]
  unfold State.firstFailing State.clearConditions State.isEntry
  rw [hrow, hmode, hrouteKind, hholds, hclear, hproven, hstore, hflank]

end Sys2Proof.Machine

/-! PROOF. Re-signal of a LOCKED route (R78), continued: what the aspects of an event leave (R116 step 2, R117, R118). -/

namespace Sys2Proof.Machine

/-! ### The aspects of CLEARED routes -/

/-- The record of an element without what a route shows there. -/
def Elem.unshown (x : Elem) : Elem := { x with aspect := .danger, proven := false }

/-- The record of a route without its commanded aspect. -/
def RouteRec.unshown (w : RouteRec) : RouteRec := { w with aspect := .danger }

/-- The start of a route shows an aspect other than DANGER, or its proven flag is set. -/
def State.proceeds (s : State) (r : Nat) (t : State) : Prop :=
  if s.isEntry r then (t.elem (s.rrow r).start).proven = true else (t.elem (s.rrow r).start).aspect ≠ .danger

/-- Aspects other than DANGER are commanded, and nothing else changes. -/
structure State.Shown (s t : State) : Prop where
  frame : t = { s with elems := t.elems, routes := t.routes }
  elem : ∀ e, (t.elem e).unshown = (s.elem e).unshown
  route : ∀ q, (t.route q).unshown = (s.route q).unshown
  proceeds : ∀ r, s.proceeds r s → s.proceeds r t

theorem State.Shown.refl (s : State) : s.Shown s := ⟨rfl, fun _ => rfl, fun _ => rfl, fun _ h => h⟩

theorem State.Shown.tables {s t : State} (h : s.Shown t) : t.isEntry = s.isEntry ∧ t.rrow = s.rrow := by
  rw [h.frame]
  exact ⟨rfl, rfl⟩

theorem State.Shown.trans {s t u : State} (h : s.Shown t) (k : t.Shown u) : s.Shown u where
  frame := by
    have h1 := h.frame
    have h2 := k.frame
    rw [h1] at h2
    exact h2
  elem e := (k.elem e).trans (h.elem e)
  route q := (k.route q).trans (h.route q)
  proceeds r hr := by
    obtain ⟨hentry, hrow⟩ := h.tables
    have hk := k.proceeds r
    unfold State.proceeds at hk
    rw [hentry, hrow] at hk
    exact hk (h.proceeds r hr)

theorem State.aspectOf_ne_danger (s : State) (r : Nat) : s.aspectOf r ≠ .danger := by
  unfold State.aspectOf
  dsimp only
  split
  · decide
  · split <;> decide
  · split <;> decide

theorem State.writeAspect_elem (s : State) (r : Nat) (a : Aspect) (k : Nat) : (s.writeAspect r a).elem k =
    if k = (s.rrow r).start then
      (if s.isEntry r then { s.elem k with proven := a != .danger } else { s.elem k with aspect := a })
    else s.elem k := by
  unfold State.writeAspect
  dsimp only
  rw [State.elem_modRoute]
  split
  · rw [State.writeProven, State.elem_modElem]
    split
    · next h => rw [h]
    · rfl
  · rw [State.commandAspect, State.elem_modElem]
    split
    · next h => rw [h]
    · rfl

theorem State.writeAspect_shown (s : State) (r : Nat) {a : Aspect} (ha : a ≠ .danger) : s.Shown (s.writeAspect r a) where
  frame := (s.writeAspect_leaves r a).1
  elem e := by
    rw [State.writeAspect_elem]
    split
    · split <;> rfl
    · rfl
  route q := by
    obtain ⟨-, hroute, -⟩ := s.writeAspect_leaves r a
    rw [hroute]
    split
    · next h => rw [h]; rfl
    · rfl
  proceeds q hq := by
    have hset : (a != .danger) = true := bne_iff_ne.2 ha
    unfold State.proceeds at hq ⊢
    rw [State.writeAspect_elem]
    split
    · next he =>
      rw [if_pos he] at hq
      split
      · split
        · exact hset
        · exact hq
      · exact hq
    · next he =>
      rw [if_neg he] at hq
      split
      · split
        · exact hq
        · exact ha
      · exact hq

theorem State.writeAspect_proceeds (s : State) (r : Nat) {a : Aspect} (ha : a ≠ .danger) :
    s.proceeds r (s.writeAspect r a) := by
  unfold State.proceeds
  rw [State.writeAspect_elem, if_pos rfl]
  split
  · exact bne_iff_ne.2 ha
  · exact ha

theorem Ev.settleAspect_shown (ev : Ev) (r : Nat) : ev.s.Shown (ev.settleAspect r).s := by
  have h := ev.s.writeAspect_shown r (ev.s.aspectOf_ne_danger r)
  unfold Ev.settleAspect
  dsimp only
  split
  · split
    · exact h
    · split
      · exact .refl _
      · exact h
  · exact .refl _

theorem Ev.foldl_settleAspect_shown (l : List Nat) (ev : Ev) : ev.s.Shown (l.foldl Ev.settleAspect ev).s := by
  induction l generalizing ev with
  | nil => exact .refl _
  | cons q l ih => exact (ev.settleAspect_shown q).trans (ih _)

/-- A route that became CLEARED at the event is shown to be (R116 step 2). -/
theorem Ev.settleAspect_proceeds {ev : Ev} {r : Nat} (hc : (ev.s.route r).state = .cleared)
    (hb : (ev.before.route r).state ≠ .cleared) : ev.s.proceeds r (ev.settleAspect r).s := by
  have hne : ((ev.before.route r).state != .cleared) = true := bne_iff_ne.2 hb
  unfold Ev.settleAspect Ev.aspectDue
  dsimp only
  rw [hne, Bool.true_or, if_pos ⟨hc, rfl⟩, if_pos rfl]
  exact ev.s.writeAspect_proceeds r (ev.s.aspectOf_ne_danger r)

theorem State.Shown.state {s t : State} (h : s.Shown t) (q : Nat) : (t.route q).state = (s.route q).state :=
  (congrArg RouteRec.state (h.route q) :)

theorem Ev.foldl_settleAspect_proceeds {r : Nat} (l : List Nat) (ev : Ev) (hr : r ∈ l)
    (hc : (ev.s.route r).state = .cleared) (hb : (ev.before.route r).state ≠ .cleared) :
    ev.s.proceeds r (l.foldl Ev.settleAspect ev).s := by
  obtain ⟨l1, l2, rfl⟩ := List.append_of_mem hr
  have h1 := Ev.foldl_settleAspect_shown l1 ev
  have hbefore : (l1.foldl Ev.settleAspect ev).before = ev.before :=
    Ev.foldl_before _ (fun ev r => ev.settleAspect_before r) l1 ev
  rw [List.foldl_append, List.foldl_cons]
  generalize l1.foldl Ev.settleAspect ev = a at h1 hbefore
  have h2 := Ev.settleAspect_proceeds ((h1.state r).trans hc) (hbefore ▸ hb)
  have h12 := h1.trans (a.settleAspect_shown r)
  have h3 := Ev.foldl_settleAspect_shown l2 (a.settleAspect r)
  obtain ⟨hentry, hrow⟩ := h1.tables
  obtain ⟨hentry', hrow'⟩ := h12.tables
  have hk := h3.proceeds r
  unfold State.proceeds at h2 hk ⊢
  rw [hentry, hrow] at h2
  rw [hentry', hrow'] at hk
  exact hk h2

end Sys2Proof.Machine

/-! PROOF. Re-signal of a LOCKED route (R78), concluded. -/

namespace Sys2Proof.Machine

/-- The state in which a Re-signal is judged by the Route Monitor: answered, and the clear-wanted mark set (R78). -/
def State.wanting (s : State) (tag : Half) (r : Nat) : State :=
  (s.answering .reSignal tag .accepted).modRoute r (fun w => { w with clearWanted := true })

/-- The route becomes CLEARED (R116). -/
def State.clearing (s : State) (r : Nat) : State :=
  s.modRoute r (fun w => { w with state := .cleared, wasCleared := true })

theorem State.wanting_frame (s : State) (tag : Half) (r : Nat) : s.wanting tag r = { s.taken .c with
    routes := (s.wanting tag r).routes, sent := (s.wanting tag r).sent } := rfl

theorem State.wanting_route (s : State) (tag : Half) (r q : Nat) : (s.wanting tag r).route q =
    if q = r then { s.route r with clearWanted := true } else s.route q := State.route_modRoute _ r q _

theorem State.clearing_route (s : State) (r q : Nat) : (s.clearing r).route q =
    if q = r then { s.route r with state := .cleared, wasCleared := true } else s.route q := State.route_modRoute s r q _

/-- Only routes and telegrams sent differ, beside what the link watch of the C-port counts. -/
theorem State.reads_of_wanting {s t : State}
    (h : t = { s.taken .c with routes := t.routes, sent := t.sent }) :
    t.store = s.store ∧ t.tablesValid = s.tablesValid ∧ t.elem = s.elem ∧ t.mode = s.mode ∧
    t.handView = s.handView ∧ t.holds = s.holds ∧ t.isEntry = s.isEntry ∧ t.rrow = s.rrow := by
  have hv : (s.taken .c).handView = s.handView := by
    funext e
    exact (State.handView_congr (s := s) (t := s.taken .c) rfl rfl rfl rfl rfl rfl e rfl).symm
  rw [h]
  exact ⟨rfl, rfl, rfl, rfl, hv, s.takenC_holds, rfl, rfl⟩

/-- Of the elements nothing is handed on. -/
theorem changedElems_of_same {s t : State} (h : t.handView = s.handView) : changedElems s t = [] :=
  List.filter_eq_nil_iff.2 fun e _ => by
    unfold handedOn
    rw [h, bne_self_eq_false]
    exact Bool.false_ne_true

theorem Ev.handToSetting_of_same {ev : Ev} (h : ev.s.handView = ev.before.handView) : ev.handToSetting = ev := by
  unfold Ev.handToSetting
  rw [changedElems_of_same h]
  exact foldl_id _ _ _ (fun c _ => ev.handToCtx_nil c)

/-! ### The evaluation of the route -/

section

variable {s : State} {tag : Half} {r : Nat}

/-- The Route Monitor's event of a Re-signal, before and after the route became CLEARED. -/
def Ev.Judging (s : State) (tag : Half) (r : Nat) (b : Ev) : Prop :=
  b.before = s ∧ (b.s = s.wanting tag r ∨ s.firstFailing r = none ∧ b.s = (s.wanting tag r).clearing r)

/-- The state in which the evaluation of the route ends (R116). -/
def State.judged (s : State) (tag : Half) (r : Nat) : State :=
  if s.firstFailing r = none then (s.wanting tag r).clearing r else s.wanting tag r

theorem Ev.Judging.reads {b : Ev} (h : b.Judging s tag r) : b.s.store = s.store ∧ b.s.tablesValid = s.tablesValid ∧
    b.s.mode = s.mode ∧ b.s.holds = s.holds ∧ (b.s.route r).groups = (s.route r).groups ∧
    (b.s.route r).flank = (s.route r).flank := by
  obtain ⟨-, h | ⟨-, h⟩⟩ := h
  · obtain ⟨hstore, hvalid, -, hmode, -, hholds, -⟩ := State.reads_of_wanting (s.wanting_frame tag r)
    rw [h, State.wanting_route, if_pos rfl]
    exact ⟨hstore, hvalid, hmode, hholds, rfl, rfl⟩
  · obtain ⟨hstore, hvalid, -, hmode, -, hholds, -⟩ :=
      State.reads_of_wanting (s := s) (t := (s.wanting tag r).clearing r) rfl
    rw [h, State.clearing_route, if_pos rfl, State.wanting_route, if_pos rfl]
    exact ⟨hstore, hvalid, hmode, hholds, rfl, rfl⟩

theorem Ev.Judging.still {b : Ev} (h : b.Judging s tag r) : b.Still r := by
  obtain ⟨hstore, hvalid, -, hholds, hgroups, -⟩ := h.reads
  obtain ⟨hbefore, -⟩ := h
  exact ⟨hbefore ▸ hholds, hbefore ▸ hstore, hbefore ▸ hvalid, hbefore ▸ hgroups⟩

theorem Ev.Judging.evalRoute {b : Ev} (hl : (s.route r).state = .locked) (h : b.Judging s tag r) :
    (b.evalRoute r).s = s.judged tag r := by
  obtain ⟨hstore, hvalid, hmode, hholds, -, hflank⟩ := h.reads
  have hfirst : b.s.firstFailing r = s.firstFailing r := State.firstFailing_congr hholds hstore hvalid hmode hflank
  rw [Ev.evalRoute_of_still h.still]
  unfold Ev.stepClear State.judged
  dsimp only
  rw [hfirst]
  obtain ⟨-, h | ⟨hn, h⟩⟩ := h
  · have hroute : b.s.route r = { s.route r with clearWanted := true } := by rw [h, State.wanting_route, if_pos rfl]
    rw [hroute]
    dsimp only
    rw [hl]
    by_cases hn : s.firstFailing r = none
    · rw [if_pos hn, hn, h]
      rfl
    · rw [if_neg hn, if_neg (by simpa using hn)]
      exact h
  · have hroute : (b.s.route r).state = .cleared := by rw [h, State.clearing_route, if_pos rfl]
    rw [hroute, hn]
    exact h

theorem Ev.Judging.foldl {b : Ev} (hl : (s.route r).state = .locked) (h : b.Judging s tag r) (l : List Nat)
    (hr : ∀ q ∈ l, q = r) (hne : l ≠ []) : (l.foldl Ev.evalRoute b).s = s.judged tag r := by
  induction l generalizing b with
  | nil => exact absurd rfl hne
  | cons q l ih =>
    obtain rfl : q = r := hr q (List.mem_cons_self ..)
    have heval := h.evalRoute hl
    rw [List.foldl_cons]
    by_cases hl' : l = []
    · rw [hl']
      exact heval
    · refine ih ⟨(b.evalRoute_before q).trans h.1, ?_⟩ (fun k hk => hr k (List.mem_cons_of_mem _ hk)) hl'
      rw [heval]
      unfold State.judged
      split
      · next hn => exact .inr ⟨hn, rfl⟩
      · exact .inl rfl

end

/-! ### The whole event -/

theorem Ev.reSignal_of_locked {s : State} {r : Nat} (tag : Half) (hl : (s.route r).state = .locked) :
    Ev.reSignal tag (Ev.asked s) r = ⟨s, s.wanting tag r, s.linkOffers .c, [r]⟩ := by
  have hl' : ((Ev.asked s).s.route r).state = .locked := hl
  rw [Ev.reSignal, if_pos hl']
  rfl

/-- Only the route itself reaches the Route Monitor (R113). -/
theorem Ev.reachedRoutes_of_same {ev : Ev} {r : Nat} (h : ev.s.handView = ev.before.handView) (hr : ev.reached = [r])
    (hm : (ev.s.route r).state.inMonitor = true) :
    (∀ q ∈ ev.reachedRoutes, q = r) ∧ ev.reachedRoutes ≠ [] := by
  have hmem (q : Nat) : q ∈ ev.reachedRoutes ↔ q ∈ ev.s.activeRoutes ∧ (ev.s.route q).state.inMonitor = true ∧ q = r := by
    unfold Ev.reachedRoutes
    rw [changedElems_of_same h, hr]
    simp [List.mem_filter]
  have hfree : (ev.s.route r).state ≠ .free := fun hf => by
    rw [hf] at hm
    cases hm
  refine ⟨fun q hq => ((hmem q).1 hq).2.2, fun hnil => ?_⟩
  have := (hmem r).2 ⟨ev.s.mem_activeRoutes r hfree, hm, rfl⟩
  rw [hnil] at this
  exact absurd this List.not_mem_nil

/-- What the Route Monitor leaves at a Re-signal: the judged state, and the aspects of CLEARED routes. -/
theorem Ev.reSignal_handed {s : State} {tag : Half} {r : Nat} {ev : Ev} (hl : (s.route r).state = .locked)
    (hev : ev = ⟨s, s.wanting tag r, s.linkOffers .c, [r]⟩) : (s.judged tag r).Shown ev.handed ∧
      (s.firstFailing r = none → (s.judged tag r).proceeds r ev.handed) := by
  obtain ⟨hbefore, hs, hreached⟩ : ev.before = s ∧ ev.s = s.wanting tag r ∧ ev.reached = [r] := by
    rw [hev]
    exact ⟨rfl, rfl, rfl⟩
  obtain ⟨-, -, -, -, hview, -⟩ := State.reads_of_wanting (s.wanting_frame tag r)
  have hsame : ev.s.handView = ev.before.handView := by rw [hs, hbefore, hview]
  have hmonitor : (ev.s.route r).state.inMonitor = true := by
    rw [hs, State.wanting_route, if_pos rfl]
    dsimp only
    rw [hl]
    rfl
  obtain ⟨hall, hne⟩ := Ev.reachedRoutes_of_same hsame hreached hmonitor
  have hjudged := Ev.Judging.foldl (b := ev) hl ⟨hbefore, .inl hs⟩ ev.reachedRoutes hall hne
  have hkept : (ev.reachedRoutes.foldl Ev.evalRoute ev).before = s :=
    (Ev.foldl_before _ (fun ev r => ev.evalRoute_before r) _ ev).trans hbefore
  unfold Ev.handed
  rw [Ev.handToSetting_of_same hsame]
  unfold Ev.monitor
  dsimp only
  generalize ev.reachedRoutes.foldl Ev.evalRoute ev = a at hjudged hkept
  rw [← hjudged]
  refine ⟨Ev.foldl_settleAspect_shown _ a, fun hn => ?_⟩
  have hcleared : (a.s.route r).state = .cleared := by
    rw [hjudged, State.judged, if_pos hn, State.clearing_route, if_pos rfl]
  exact Ev.foldl_settleAspect_proceeds _ a (a.s.mem_activeRoutes r (by rw [hcleared]; decide)) hcleared
    (by rw [hkept, hl]; decide)

theorem State.judged_route (s : State) (tag : Half) (r q : Nat) : ((s.judged tag r).route q).unshown =
    (if q = r then { s.route r with
        clearWanted := true
        state := if s.firstFailing r = none then .cleared else (s.route r).state
        wasCleared := (s.route r).wasCleared || (s.firstFailing r).isNone }
      else s.route q).unshown := by
  unfold State.judged
  by_cases hn : s.firstFailing r = none
  · rw [if_pos hn, State.clearing_route, State.wanting_route, State.wanting_route, if_pos rfl, if_pos hn, hn]
    split <;> simp
  · rw [if_neg hn, State.wanting_route, if_neg hn, Option.isNone_eq_false_iff.2 (Option.isSome_iff_ne_none.2 hn)]
    split <;> simp

theorem State.judged_frame (s : State) (tag : Half) (r : Nat) : s.judged tag r = { s.taken .c with
    routes := (s.judged tag r).routes, sent := (s.judged tag r).sent } := by
  unfold State.judged
  split <;> rfl

theorem State.frame_of_judged {s u v t : State} (hu : u = { s with routes := u.routes, sent := u.sent })
    (hv : v = { u with elems := v.elems, routes := v.routes }) (ht : t = { v.withReportsOf t with sent := t.sent }) :
    t = { s.withReportsOf t with elems := t.elems, routes := t.routes, sent := t.sent } := by
  rw [hu] at hv
  rw [hv] at ht
  have helems := congrArg State.elems ht
  have hroutes := congrArg State.routes ht
  rw [helems, hroutes]
  exact ht

theorem Elem.held_of_unshown {x y : Elem} (h : x.unshown = y.unshown) :
    x.bare = y.bare ∧ x.lockOwner = y.lockOwner ∧ x.claims = y.claims := by
  refine ⟨?_, ?_, ?_⟩
  · have k := congrArg Elem.bare h
    exact k
  · have k := congrArg Elem.lockOwner h
    exact k
  · have k := congrArg Elem.claims h
    exact k

theorem RouteRec.fields_of_unshown {x y : RouteRec} (h : x.unshown = y.unshown) :
    x.state = y.state ∧ x.clearWanted = y.clearWanted ∧ x.wasCleared = y.wasCleared := by
  refine ⟨?_, ?_, ?_⟩
  · have k := congrArg RouteRec.state h
    exact k
  · have k := congrArg RouteRec.clearWanted h
    exact k
  · have k := congrArg RouteRec.wasCleared h
    exact k

end Sys2Proof.Machine

section

open Sys2Proof Sys2Proof.Machine

/-- Settles O19: no element changes at the event, so the Route Monitor evaluates the route alone, and of the route only
its clear conditions. -/
theorem reSignalClearsRoute : Obligations.ReSignalClearsRoute := by
  intro tag p s r ha hr hl
  have hexec := exec_reSignal_of_found tag ha hr
  generalize hev : Ev.reSignal tag (Ev.asked s) r = ev at hexec
  rw [Ev.reSignal_of_locked tag hl] at hev
  obtain ⟨hshown, hproceeds⟩ := Ev.reSignal_handed hl hev.symm
  obtain ⟨-, -, helems, -, -, -, hentry, hrow⟩ := State.reads_of_wanting (s.judged_frame tag r)
  have hs : ev.s.sent = s.sent ++ [⟨.c, .reply 0x01 0x03 tag .accepted .none⟩] := by
    rw [← hev]
    rfl
  have hsent := ev.settle_handedOn.sent
  have hsettle := State.frame_of_judged (s.judged_frame tag r) hshown.frame ev.settle_handed
  have hroute (q : Nat) := RouteRec.fields_of_unshown
    ((congrArg RouteRec.unshown (ev.settle_route q)).trans ((hshown.route q).trans (s.judged_route tag r q)))
  have helem (e : Nat) := Elem.held_of_unshown ((congrArg Elem.unshown (ev.settle_elem e)).trans (hshown.elem e))
  have hstart := ev.settle_elem (s.rrow r).start
  generalize ev.settle = t at hexec hsent hsettle hroute helem hstart
  generalize ev.handed = u at hproceeds hstart
  rw [hs] at hsent
  obtain ⟨hstate, hwanted, hwas⟩ := hroute r
  rw [if_pos rfl] at hstate hwanted hwas
  refine ⟨t, hexec, hwanted, ?_, hwas, fun hn => ?_, hsent, fun q hq => ?_, fun e => ?_, fun e => ?_, hsettle⟩
  · rw [hstate, hl]
  · have h := hproceeds hn
    unfold State.proceeds at h
    rw [hentry, hrow] at h
    rw [hstart]
    exact h
  · obtain ⟨h, -⟩ := hroute q
    rw [if_neg hq] at h
    exact h
  · obtain ⟨h, -⟩ := helem e
    rw [h, helems]
  · obtain ⟨-, hlock, hclaims⟩ := helem e
    rw [hlock, hclaims, helems]
    exact ⟨rfl, rfl⟩

end

/-! PROOF SUPPORT. The release of groups of a route (R131). -/

namespace Sys2Proof.Machine

/-- The elements that the release of a group unlocks (R131 steps 1 and 2). -/
def State.groupElems (s : State) (r g : Nat) : List Nat :=
  let es := ((pathOf s.store (s.rrow r)).filter (fun x => x.group == g)).map (·.target)
  if g = 1 ∧ s.kind (s.rrow r).start = some .signal then es ++ [(s.rrow r).start] else es

theorem State.mem_groupElems (s : State) (r g e : Nat) : e ∈ s.groupElems r g ↔ Claims.inGroup s r g e := by
  have hpath : e ∈ ((pathOf s.store (s.rrow r)).filter (fun x => x.group == g)).map (·.target) ↔
      ∃ x ∈ pathOf s.store (s.rrow r), x.group = g ∧ x.target = e := by
    simp only [List.mem_map, List.mem_filter, beq_iff_eq, and_assoc]
  unfold State.groupElems Claims.inGroup
  dsimp only
  split
  · next h =>
    rw [List.mem_append, List.mem_singleton, hpath]
    exact ⟨Or.imp_right fun he => ⟨h.1, he, he ▸ h.2⟩, Or.imp_right fun ⟨_, he, _⟩ => he⟩
  · next h =>
    rw [hpath]
    exact ⟨.inl, fun hor => hor.resolve_right fun ⟨hg, he, hk⟩ => h ⟨hg, he ▸ hk⟩⟩

theorem State.releaseGroup_eq (s : State) (r g : Nat) : s.releaseGroup r g =
    ((((s.groupElems r g).foldl State.unlock s).dropClaims r (fun f => f.group == .group g)).modRoute r
      (fun w => w.setGroup g .released)) := rfl

theorem RouteRec.groupState_setGroup (w : RouteRec) {g h : Nat} (x : GroupState) (hg : 1 ≤ g) (hl : g ≤ w.groups.length)
    (hh : 1 ≤ h) : (w.setGroup g x).groupState h = if h = g then x else w.groupState h := by
  unfold RouteRec.setGroup RouteRec.groupState
  dsimp only
  by_cases heq : h = g
  · rw [if_pos heq, heq, List.getD_eq_getElem?_getD, List.getElem?_set_self (by omega)]
    rfl
  · rw [if_neg heq, List.getD_eq_getElem?_getD, List.getD_eq_getElem?_getD, List.getElem?_set_ne (by omega)]

theorem RouteRec.setGroup_length (w : RouteRec) (g : Nat) (x : GroupState) :
    (w.setGroup g x).groups.length = w.groups.length := List.length_set

theorem State.foldl_dropClaim_lock (fs : List FlankRec) (s : State) (k : Nat) :
    ((fs.foldl State.dropClaim s).elem k).lockOwner = (s.elem k).lockOwner := by
  induction fs generalizing s with
  | nil => rfl
  | cons f fs ih =>
    rw [List.foldl_cons, ih, State.dropClaim, State.elem_modElem]
    split
    · next h => rw [h]
    · rfl

theorem State.dropClaims_elem (s : State) (r k : Nat) (p : FlankRec → Bool) :
    ((s.dropClaims r p).elem k).lockOwner = (s.elem k).lockOwner ∧
    ((s.dropClaims r p).elem k).claims =
      (s.elem k).claims - ((s.route r).flank.filter (fun f => f.elem == k && p f)).length := by
  have h := State.claims_foldl_dropClaim ((s.route r).flank.filter p) s k
  rw [List.filter_filter] at h
  unfold State.dropClaims
  rw [State.elem_modRoute]
  exact ⟨State.foldl_dropClaim_lock _ s k, h⟩

/-- What the release of a group leaves of the route's record (R131). -/
theorem State.releaseGroup_route (s : State) (r g k : Nat) : (s.releaseGroup r g).route k =
    if k = r then { (s.route r).setGroup g .released with
      flank := (s.route r).flank.filter (fun f => f.group != .group g) } else s.route k := by
  have h := (State.eased_of_unlocking s (s.groupElems r g) r (fun f => f.group == .group g)).route
  have hflank : (((s.groupElems r g).foldl State.unlock s).dropClaims r (fun f => f.group == .group g)).route r =
      { s.route r with flank := (s.route r).flank.filter (fun f => f.group != .group g) } := by
    obtain ⟨-, -, hd⟩ := ((s.groupElems r g).foldl State.unlock s).dropClaims_others r (fun f => f.group == .group g)
    have hroute : ((s.groupElems r g).foldl State.unlock s).route = s.route := by
      rw [State.foldl_unlock_frame]
      rfl
    rw [hd, if_pos rfl, hroute]
    rfl
  rw [State.releaseGroup_eq, State.route_modRoute, hflank]
  by_cases hk : k = r
  · rw [if_pos hk, if_pos hk]
    rfl
  · rw [if_neg hk, if_neg hk, h, if_neg hk]

theorem State.releaseGroup_elem (s : State) (r g k : Nat) :
    ((s.releaseGroup r g).elem k).lockOwner = (if k ∈ s.groupElems r g then none else (s.elem k).lockOwner) ∧
    ((s.releaseGroup r g).elem k).claims = (s.elem k).claims -
      ((s.route r).flank.filter (fun f => f.elem == k && f.group == .group g)).length := by
  have hroute : ((s.groupElems r g).foldl State.unlock s).route = s.route := by
    rw [State.foldl_unlock_frame]
    rfl
  obtain ⟨hlock, hclaims⟩ := ((s.groupElems r g).foldl State.unlock s).dropClaims_elem r k (fun f => f.group == .group g)
  rw [State.releaseGroup_eq, State.elem_modRoute, hlock, hclaims, hroute, State.elem_foldl_unlock]
  split
  · exact ⟨rfl, rfl⟩
  · exact ⟨rfl, rfl⟩

theorem State.releaseGroup_frame (s : State) (r g : Nat) : s.releaseGroup r g = { s with
    elems := (s.releaseGroup r g).elems, routes := (s.releaseGroup r g).routes } := by
  have h := (State.eased_of_unlocking s (s.groupElems r g) r (fun f => f.group == .group g)).frame
  rw [State.releaseGroup_eq]
  generalize ((s.groupElems r g).foldl State.unlock s).dropClaims r (fun f => f.group == .group g) = t at h
  rw [h]
  rfl

/-! ### Several groups -/

/-- What the release of several groups of a route leaves (R131). -/
structure State.GroupsReleased (s t : State) (r : Nat) (gs : List Nat) : Prop where
  frame : t = { s with elems := t.elems, routes := t.routes }
  others : ∀ k, k ≠ r → t.route k = s.route k
  route : t.route r = { s.route r with groups := (t.route r).groups, flank := (t.route r).flank }
  groups : ∀ h, 1 ≤ h → (t.route r).groupState h = if h ∈ gs then .released else (s.route r).groupState h
  length : (t.route r).groups.length = (s.route r).groups.length
  flank : (t.route r).flank = (s.route r).flank.filter (fun f => gs.all (fun g => f.group != .group g))
  unlocked : ∀ g ∈ gs, ∀ e, Claims.inGroup s r g e → (t.elem e).lockOwner = none
  lock : ∀ e, (s.elem e).lockOwner = none → (t.elem e).lockOwner = none
  claims : ∀ e, (t.elem e).claims ≤ (s.elem e).claims
  dropped : ∀ g ∈ gs, ∀ e, (t.elem e).claims ≤
    (s.elem e).claims - ((s.route r).flank.filter (fun f => f.elem == e && f.group == .group g)).length

theorem State.GroupsReleased.nil (s : State) (r : Nat) : s.GroupsReleased s r [] where
  frame := rfl
  others _ _ := rfl
  route := rfl
  groups h _ := (if_neg List.not_mem_nil).symm
  length := rfl
  flank := by simp
  unlocked g hg := absurd hg List.not_mem_nil
  lock _ h := h
  claims _ := le_refl _
  dropped g hg := absurd hg List.not_mem_nil

/-- What a group names does not depend on the records. -/
theorem Claims.inGroup_congr {s t : State} (h : t = { s with elems := t.elems, routes := t.routes }) (r g e : Nat) :
    Claims.inGroup t r g e ↔ Claims.inGroup s r g e := by
  rw [h]
  exact Iff.rfl

/-- The flank records of a group are not touched by the release of another. -/
theorem filter_flank_of_ne (l : List FlankRec) {g h : Nat} (hne : h ≠ g) (e : Nat) :
    (l.filter (fun f => f.group != .group g)).filter (fun f => f.elem == e && f.group == .group h) =
      l.filter (fun f => f.elem == e && f.group == .group h) := by
  rw [List.filter_filter]
  refine List.filter_congr fun f _ => ?_
  by_cases hf : f.group = .group h
  · simp [hf, hne]
  · simp [hf]

theorem State.GroupsReleased.cons {s t : State} {r g : Nat} {gs : List Nat} (hg : 1 ≤ g)
    (hl : g ≤ (s.route r).groups.length) (k : (s.releaseGroup r g).GroupsReleased t r gs) :
    s.GroupsReleased t r (g :: gs) := by
  have hself := s.releaseGroup_route r g r
  rw [if_pos rfl] at hself
  have hframe := s.releaseGroup_frame r g
  have helem := s.releaseGroup_elem r g
  have hothers (q : Nat) (hq : q ≠ r) : (s.releaseGroup r g).route q = s.route q :=
    (s.releaseGroup_route r g q).trans (if_neg hq)
  have hgroup (h : Nat) (hh : 1 ≤ h) : ((s.releaseGroup r g).route r).groupState h =
      if h = g then .released else (s.route r).groupState h := by
    rw [hself]
    exact RouteRec.groupState_setGroup (s.route r) .released hg hl hh
  have hlength : ((s.releaseGroup r g).route r).groups.length = (s.route r).groups.length := by
    rw [hself]
    exact RouteRec.setGroup_length _ g .released
  have hflank : ((s.releaseGroup r g).route r).flank = (s.route r).flank.filter (fun f => f.group != .group g) := by
    rw [hself]
  have hroute : (s.releaseGroup r g).route r = { s.route r with
      groups := ((s.releaseGroup r g).route r).groups, flank := ((s.releaseGroup r g).route r).flank } := by
    rw [hself]
    rfl
  have hmem := s.mem_groupElems r g
  generalize s.releaseGroup r g = u at *
  refine ⟨?_, fun q hq => (k.others q hq).trans (hothers q hq), ?_, fun h hh => ?_, k.length.trans hlength, ?_,
    fun h hh e he => ?_, fun e he => ?_, fun e => ?_, fun h hh e => ?_⟩
  · have hk := k.frame
    rw [hframe] at hk
    exact hk
  · have hk := k.route
    rw [hroute] at hk
    exact hk
  · rw [k.groups h hh, hgroup h hh]
    by_cases h1 : h = g
    · rw [if_pos h1, ite_self, if_pos (h1 ▸ List.mem_cons_self ..)]
    · rw [if_neg h1]
      simp only [List.mem_cons, h1, false_or]
  · rw [k.flank, hflank, List.filter_filter]
    refine List.filter_congr fun f _ => ?_
    rw [List.all_cons, Bool.and_comm]
  · rcases List.mem_cons.1 hh with rfl | hh
    · exact k.lock e ((helem e).1.trans (if_pos ((hmem e).2 he)))
    · exact k.unlocked h hh e ((Claims.inGroup_congr hframe r h e).2 he)
  · refine k.lock e ?_
    rw [(helem e).1, he]
    exact ite_self _
  · exact (k.claims e).trans ((helem e).2 ▸ Nat.sub_le _ _)
  · by_cases h1 : h = g
    · exact h1 ▸ (k.claims e).trans (le_of_eq (helem e).2)
    · have hk := k.dropped h ((List.mem_cons.1 hh).resolve_left h1) e
      rw [hflank, filter_flank_of_ne _ h1] at hk
      refine hk.trans (Nat.sub_le_sub_right ?_ _)
      rw [(helem e).2]
      exact Nat.sub_le _ _

theorem State.foldl_releaseGroup (r : Nat) (gs : List Nat) (s : State)
    (hgs : ∀ g ∈ gs, 1 ≤ g ∧ g ≤ (s.route r).groups.length) :
    s.GroupsReleased (gs.foldl (fun s g => s.releaseGroup r g) s) r gs := by
  induction gs generalizing s with
  | nil => exact .nil s r
  | cons g gs ih =>
    obtain ⟨hg, hl⟩ := hgs g (List.mem_cons_self ..)
    refine .cons hg hl (ih (s.releaseGroup r g) fun h hh => ?_)
    rw [State.releaseGroup_route, if_pos rfl]
    refine (hgs h (List.mem_cons_of_mem _ hh)).imp_right fun hle => hle.trans ?_
    exact le_of_eq (RouteRec.setGroup_length _ g .released).symm

end Sys2Proof.Machine

section

open Sys2Proof Sys2Proof.Machine

/-- The release of a group, read off its parts. -/
theorem groupReleaseUnlocksElements : Claims.GroupReleaseUnlocksElements := by
  intro s r g hg hl
  have hgroup (h : Nat) (hh : 1 ≤ h) : ((s.releaseGroup r g).route r).groupState h =
      if h = g then .released else (s.route r).groupState h := by
    rw [State.releaseGroup_route, if_pos rfl]
    exact RouteRec.groupState_setGroup (s.route r) .released hg hl hh
  refine ⟨fun e he => ?_, fun e he => ?_, fun e => (s.releaseGroup_elem r g e).2, ?_, ?_, fun h hne hh => ?_,
    fun q hq => ?_, (s.releaseGroup_handedOn r g).bare, s.releaseGroup_frame r g⟩
  · rw [(s.releaseGroup_elem r g e).1, if_pos ((s.mem_groupElems r g e).2 he)]
  · rw [(s.releaseGroup_elem r g e).1, if_neg (fun h => he ((s.mem_groupElems r g e).1 h))]
  · rw [State.releaseGroup_route, if_pos rfl]
  · rw [hgroup g hg, if_pos rfl]
  · rw [hgroup h hh, if_neg hne]
  · rw [State.releaseGroup_route, if_neg hq]

end

/-! PROOF SUPPORT. What the evaluation of one route leaves of the others (R113): their records but for the release timer
fields, the wait list, the claims and the transactions. -/

namespace Sys2Proof.Machine

/-- A route stands on no wait list. -/
def State.NotWaiting (s : State) (r : Nat) : Prop := ∀ w ∈ s.waitList, w.route ≠ r

/-- A route has asked for the timer of its overlap, and holds it or waits for it (R66, R132). -/
structure State.OverlapWaits (s : State) (r : Nat) : Prop where
  list : ∀ w ∈ s.waitList, w.route = r → w.purpose = .overlap
  purpose : (s.route r).purpose = .overlap
  timed : (s.route r).timer ≠ none ∨ (s.route r).deferred = true

/-- What stays of everything but route q where its record and what it holds change. -/
structure State.Aside (q : Nat) (s t : State) : Prop where
  store : t.store = s.store
  others : ∀ k, k ≠ q → (t.route k).sameButTimer (s.route k)
  waiting : ∀ k, k ≠ q → s.NotWaiting k → t.NotWaiting k ∧ t.route k = s.route k
  overlap : ∀ k, k ≠ q → s.OverlapWaits k → t.OverlapWaits k
  claims : ∀ e, (t.elem e).claims ≤ (s.elem e).claims
  cleared : ∀ e, s.transOf e = {} → t.transOf e = {}
  trans : ∀ e, e ≠ (s.rrow q).dest → t.transOf e = s.transOf e

theorem State.Aside.refl (q : Nat) (s : State) : State.Aside q s s :=
  ⟨rfl, fun _ _ => rfl, fun _ _ h => ⟨h, rfl⟩, fun _ _ h => h, fun _ => le_refl _, fun _ h => h, fun _ _ => rfl⟩

theorem State.Aside.trans' {q : Nat} {s t u : State} (h : State.Aside q s t) (k : State.Aside q t u) :
    State.Aside q s u where
  store := k.store.trans h.store
  others j hj := (k.others j hj).trans (h.others j hj)
  waiting j hj hw := by
    obtain ⟨hw1, hr1⟩ := h.waiting j hj hw
    obtain ⟨hw2, hr2⟩ := k.waiting j hj hw1
    exact ⟨hw2, hr2.trans hr1⟩
  overlap j hj hw := k.overlap j hj (h.overlap j hj hw)
  claims e := (k.claims e).trans (h.claims e)
  cleared e he := k.cleared e (h.cleared e he)
  trans e he := by
    have hrow : t.rrow q = s.rrow q := by rw [State.rrow, h.store, State.rrow]
    exact (k.trans e (hrow ▸ he)).trans (h.trans e he)

/-- Transitivity where the middle state is only definitionally the same. -/
theorem State.Aside.via {q : Nat} {s t t' u : State} (h : State.Aside q s t) (k : State.Aside q t' u)
    (e : t = t' := by rfl) : State.Aside q s u := h.trans' (e ▸ k)

theorem State.OverlapWaits.congr {s t : State} {k : Nat} (hw : t.waitList = s.waitList) (hr : t.route k = s.route k)
    (h : s.OverlapWaits k) : t.OverlapWaits k :=
  ⟨hw ▸ h.list, hr ▸ h.purpose, hr ▸ h.timed⟩

/-- A change that touches neither the timers nor another route. -/
theorem State.aside_of_untimed {q : Nat} {s t : State} (hstore : t.store = s.store) (hwait : t.waitList = s.waitList)
    (hroute : ∀ k, k ≠ q → t.route k = s.route k) (hclaims : ∀ e, (t.elem e).claims ≤ (s.elem e).claims)
    (htrans : t.transOf = s.transOf) : State.Aside q s t where
  store := hstore
  others k hk := congrArg RouteRec.noTimer (hroute k hk)
  waiting k hk h := ⟨fun w hw => h w (hwait ▸ hw), hroute k hk⟩
  overlap k hk h := h.congr hwait (hroute k hk)
  claims := hclaims
  cleared _ h := htrans ▸ h
  trans e _ := congrFun htrans e

theorem State.modRoute_aside (s : State) (q : Nat) (f : RouteRec → RouteRec) : State.Aside q s (s.modRoute q f) :=
  State.aside_of_untimed rfl rfl (fun k hk => (State.route_modRoute s q k f).trans (if_neg hk)) (fun _ => le_refl _) rfl

theorem State.setRoute_aside (s : State) (q : Nat) (w : RouteRec) : State.Aside q s (s.setRoute q w) :=
  State.aside_of_untimed rfl rfl (fun k hk => (State.route_setRoute s q k w).trans (if_neg hk)) (fun _ => le_refl _) rfl

theorem State.latch_aside (s : State) (q : Nat) (x : Latch) : State.Aside q s (s.latch x) :=
  State.aside_of_untimed rfl rfl (fun _ _ => rfl) (fun _ => le_refl _) rfl

/-! ### The release timers -/

/-- What the release timer pool does leaves the claims and the transactions. -/
theorem State.Timed.aside {q : Nat} {s t : State} (h : s.Timed t)
    (hw : ∀ k, k ≠ q → s.NotWaiting k → t.NotWaiting k ∧ t.route k = s.route k)
    (ho : ∀ k, k ≠ q → s.OverlapWaits k → t.OverlapWaits k) :
    State.Aside q s t := by
  obtain ⟨-, htrans, -, helem, -⟩ := State.shared_of_timed h
  have hstore : t.store = s.store := by rw [h.frame]
  have htransOf := State.transOf_congr htrans
  exact ⟨hstore, fun k _ => h.route k, hw, ho, fun _ => by rw [helem], fun e he => by rw [htransOf, he],
    fun e _ => congrFun htransOf e⟩

theorem State.freeTimer_aside (s : State) (q t : Nat) : State.Aside q s (s.freeTimer t) := by
  cases hl : s.waitList with
  | nil =>
    have he : s.freeTimer t = s.setTimer t none := by rw [State.freeTimer, hl]
    rw [he]
    exact State.aside_of_untimed rfl rfl (fun _ _ => rfl) (fun _ => le_refl _) rfl
  | cons x rest =>
    obtain ⟨hserved, -⟩ := s.freeTimer_serves t
    have hothers (k : Nat) (hk : k ≠ x.route) : (s.freeTimer t).route k = s.route k := by
      obtain ⟨-, -, -, -, -, -, hsame⟩ :=
        State.grantTimer_gives { s.setTimer t none with waitList := rest } t x.route x.purpose
      rw [State.freeTimer, hl]
      exact hsame k hk
    rw [hl] at hserved
    obtain ⟨-, hrest, htimer, hpurpose, -⟩ := hserved
    refine (s.freeTimer_timed t).aside (fun k _ hw => ⟨fun w hm => ?_, hothers k ?_⟩) (fun k _ h => ?_)
    · rw [hrest] at hm
      exact hw w (hl ▸ List.mem_cons_of_mem _ hm)
    · exact (hw x (hl ▸ List.mem_cons_self ..)).symm
    · have hlist : ∀ w ∈ (s.freeTimer t).waitList, w.route = k → w.purpose = .overlap := fun w hw =>
        h.list w (hl ▸ List.mem_cons_of_mem _ (hrest ▸ hw))
      by_cases hk : k = x.route
      · have hx : x.purpose = .overlap := h.list x (hl ▸ List.mem_cons_self ..) hk.symm
        exact ⟨hlist, by rw [hk, hpurpose, hx], .inl (by rw [hk, htimer]; exact Option.some_ne_none t)⟩
      · exact ⟨hlist, hothers k hk ▸ h.purpose, hothers k hk ▸ h.timed⟩

/-- The wait list loses entries of route q only. -/
theorem State.filterWaits_aside (s : State) (q : Nat) :
    State.Aside q s { s with waitList := s.waitList.filter (fun w => w.route != q) } where
  store := rfl
  others _ _ := rfl
  waiting _ _ hw := ⟨fun w hm => hw w (List.mem_filter.1 hm).1, rfl⟩
  overlap _ _ h := ⟨fun w hm => h.list w (List.mem_filter.1 hm).1, h.purpose, h.timed⟩
  claims _ := le_refl _
  cleared _ h := h
  trans _ _ := rfl

theorem State.freeRequest_aside (s : State) (q : Nat) : State.Aside q s (s.freeRequest q) := by
  unfold State.freeRequest
  split
  · exact (s.modRoute_aside q _).trans' (State.freeTimer_aside _ q _)
  · split
    · exact (s.modRoute_aside q _).trans' (State.filterWaits_aside _ q)
    · exact .refl q s

theorem State.grantTimer_aside (s : State) (t q : Nat) (p : Purpose) : State.Aside q s (s.grantTimer t q p) := by
  obtain ⟨-, hwait, -, -, -, -, hothers⟩ := s.grantTimer_gives t q p
  exact State.aside_of_untimed rfl hwait hothers (fun _ => le_refl _) rfl

theorem State.repurposeWaits_aside (s : State) (q : Nat) (p : Purpose) : State.Aside q s
    { s with waitList := s.waitList.map (fun w => if w.route = q then { w with purpose := p } else w) } where
  store := rfl
  others _ _ := rfl
  waiting k hk hw := by
    refine ⟨fun w hm => ?_, rfl⟩
    obtain ⟨x, hx, rfl⟩ := List.mem_map.1 hm
    split
    · exact hw x hx
    · exact hw x hx
  overlap k hk h := by
    refine ⟨fun w hm hwk => ?_, h.purpose, h.timed⟩
    obtain ⟨x, hx, rfl⟩ := List.mem_map.1 hm
    split at hwk
    · next he => exact absurd (hwk.symm.trans he) hk
    · next he =>
      rw [if_neg he]
      exact h.list x hx hwk
  claims _ := le_refl _
  cleared _ h := h
  trans _ _ := rfl

theorem State.joinWaits_aside (s : State) (q : Nat) (p : Purpose) :
    State.Aside q s { s with waitList := s.waitList ++ [⟨q, p⟩] } where
  store := rfl
  others _ _ := rfl
  waiting k hk hw := by
    refine ⟨fun w hm => ?_, rfl⟩
    rcases List.mem_append.1 hm with hm | hm
    · exact hw w hm
    · rw [List.mem_singleton.1 hm]
      exact hk.symm
  overlap k hk h := by
    refine ⟨fun w hm hwk => ?_, h.purpose, h.timed⟩
    rcases List.mem_append.1 hm with hm | hm
    · exact h.list w hm hwk
    · rw [List.mem_singleton.1 hm] at hwk
      exact absurd hwk.symm hk
  claims _ := le_refl _
  cleared _ h := h
  trans _ _ := rfl

theorem State.timerRequest_aside (s : State) (q : Nat) (p : Purpose) : State.Aside q s (s.timerRequest q p).1 := by
  unfold State.timerRequest
  split
  · exact s.freeRequest_aside q
  · split
    · exact s.grantTimer_aside _ q p
    · split
      · exact (s.modRoute_aside q _).trans' (State.repurposeWaits_aside _ q p)
      · split
        · exact s.grantTimer_aside _ q p
        · exact (s.modRoute_aside q _).trans' (State.joinWaits_aside _ q p)

/-! ### Elements, aspects and the border side -/

theorem State.unlockAll_aside (s : State) (q : Nat) : State.Aside q s (s.unlockAll q) := by
  obtain ⟨-, -, hroute⟩ := s.unlockAll_others q
  have hclaims := fun e => le_of_eq (s.claims_unlockAll q e)
  have hframe : s.unlockAll q = { s with elems := (s.unlockAll q).elems } := State.foldl_unlock_frame _ s
  generalize s.unlockAll q = t at hframe hroute hclaims
  rw [hframe] at hroute hclaims ⊢
  exact State.aside_of_untimed rfl rfl (fun k _ => congrFun hroute k) hclaims rfl

theorem State.dropClaims_aside (s : State) (q : Nat) (p : FlankRec → Bool) : State.Aside q s (s.dropClaims q p) := by
  obtain ⟨-, -, hroute⟩ := s.dropClaims_others q p
  have hclaims (e : Nat) : ((s.dropClaims q p).elem e).claims ≤ (s.elem e).claims :=
    (s.dropClaims_elem q e p).2 ▸ Nat.sub_le _ _
  have hframe := s.dropClaims_frames q p
  generalize s.dropClaims q p = t at hframe hroute hclaims
  have hwait : t.waitList = s.waitList ∧ t.store = s.store ∧ t.transOf = s.transOf := by
    rw [hframe]
    exact ⟨rfl, rfl, rfl⟩
  obtain ⟨hwait, hstore, htrans⟩ := hwait
  exact State.aside_of_untimed hstore hwait (fun k hk => (hroute k).trans (if_neg hk)) hclaims htrans

theorem State.GroupsReleased.aside {s t : State} {q : Nat} {gs : List Nat} (h : s.GroupsReleased t q gs) :
    State.Aside q s t := by
  have hkept : t.waitList = s.waitList ∧ t.store = s.store ∧ t.transOf = s.transOf := by
    rw [h.frame]
    exact ⟨rfl, rfl, rfl⟩
  obtain ⟨hwait, hstore, htrans⟩ := hkept
  exact State.aside_of_untimed hstore hwait h.others h.claims htrans

theorem State.releaseOverlap_aside (s : State) (q : Nat) : State.Aside q s (s.releaseOverlap q) := by
  have hone : State.Aside q s (((overlapOf s.store (s.rrow q)).map (·.target)).foldl State.unlock s) := by
    have hclaims (e : Nat) :
        ((((overlapOf s.store (s.rrow q)).map (·.target)).foldl State.unlock s).elem e).claims ≤ (s.elem e).claims := by
      rw [State.elem_foldl_unlock]
      split <;> exact le_refl _
    have hframe := State.foldl_unlock_frame ((overlapOf s.store (s.rrow q)).map (·.target)) s
    generalize ((overlapOf s.store (s.rrow q)).map (·.target)).foldl State.unlock s = t at hframe hclaims
    rw [hframe] at hclaims ⊢
    exact State.aside_of_untimed rfl rfl (fun _ _ => rfl) hclaims rfl
  exact hone.trans' (State.dropClaims_aside _ q _)

theorem State.writeAspect_aside (s : State) (q : Nat) (a : Aspect) : State.Aside q s (s.writeAspect q a) := by
  obtain ⟨hframe, hroute, -⟩ := s.writeAspect_leaves q a
  have hclaims (e : Nat) : ((s.writeAspect q a).elem e).claims ≤ (s.elem e).claims := by
    obtain ⟨x, y, he⟩ := s.elem_writeAspect q a e
    rw [he]
  generalize s.writeAspect q a = t at hframe hroute hclaims
  have hkept : t.waitList = s.waitList ∧ t.store = s.store ∧ t.transOf = s.transOf := by
    rw [hframe]
    exact ⟨rfl, rfl, rfl⟩
  obtain ⟨hwait, hstore, htrans⟩ := hkept
  exact State.aside_of_untimed hstore hwait (fun k hk => (hroute k).trans (if_neg hk)) hclaims htrans

/-- The transaction that a route's full release ends is that of its destination (R134). -/
theorem Ev.borderRelease_aside (ev : Ev) (q : Nat) (b : Bool) : State.Aside q ev.s (ev.borderRelease q b).s := by
  obtain ⟨-, -, -, hframe, hcleared⟩ := ev.borderRelease_leaves q b
  have htrans (e : Nat) (he : e ≠ (ev.s.rrow q).dest) : (ev.borderRelease q b).s.transOf e = ev.s.transOf e := by
    have hset : (ev.s.setTrans (ev.s.rrow q).dest {}).transOf e = ev.s.transOf e :=
      (State.transOf_setTrans ..).trans (if_neg he)
    unfold Ev.borderRelease
    dsimp only
    split
    · split
      · split <;> exact hset
      · rfl
    · rfl
  generalize (ev.borderRelease q b).s = t at hframe hcleared htrans
  have hkept : t.waitList = ev.s.waitList ∧ t.store = ev.s.store ∧ t.route = ev.s.route ∧ t.elem = ev.s.elem := by
    rw [hframe]
    exact ⟨rfl, rfl, rfl, rfl⟩
  obtain ⟨hwait, hstore, hroute, helem⟩ := hkept
  exact ⟨hstore, fun k _ => congrArg RouteRec.noTimer (congrFun hroute k), fun k _ h => ⟨fun w hw => h w (hwait ▸ hw), congrFun hroute k⟩,
    fun k _ h => h.congr hwait (congrFun hroute k), fun e => by rw [helem], hcleared, htrans⟩

theorem Ev.inOrder_aside (r : Nat) (q : Sequence) (fs : List (Ev → Ev))
    (h : ∀ f ∈ fs, ∀ b : Ev, State.Aside r b.s (f b).s) (ev : Ev) (k : Nat) :
    State.Aside r ev.s (ev.inOrder q k fs).s := by
  induction fs generalizing ev k with
  | nil => exact .refl r _
  | cons f fs ih =>
    have hone : State.Aside r ev.s (ev.part q k f).s := h f (List.mem_cons_self ..) { ev with offers := [] }
    exact hone.trans' (ih (fun g hg => h g (List.mem_cons_of_mem _ hg)) (ev.part q k f) (k + 1))

theorem Ev.foldl_aside {α : Type} (r : Nat) (f : Ev → α → Ev) (h : ∀ (b : Ev) a, State.Aside r b.s (f b a).s)
    (l : List α) (ev : Ev) : State.Aside r ev.s (l.foldl f ev).s := by
  induction l generalizing ev with
  | nil => exact .refl r _
  | cons a l ih => exact (h ev a).trans' (ih (f ev a))

theorem State.givingBack_aside (s : State) (q : Nat) : State.Aside q s (s.givingBack q) :=
  ((s.unlockAll_aside q).trans' (State.dropClaims_aside _ q _)).trans' (State.freeRequest_aside _ q)

theorem Ev.endRoute_aside (a : Ev) (r : Nat) (w : RouteRec) : State.Aside r a.s (a.endRoute r w).s :=
  Ev.inOrder_aside r _ _ (List.forall_mem_cons.2 ⟨fun b => b.borderRelease_aside r _,
    List.forall_mem_singleton.2 fun b => b.s.setRoute_aside r {}⟩) a 1

theorem Ev.fullRelease_aside (ev : Ev) (q : Nat) : State.Aside q ev.s (ev.fullRelease q).s :=
  (ev.s.givingBack_aside q).trans' (Ev.endRoute_aside (ev.on (fun s => s.givingBack q)) q (ev.s.route q))

theorem Ev.timedWait_aside (ev : Ev) (q : Nat) (p : Purpose) (x : RouteEvent) :
    State.Aside q ev.s (ev.timedWait q p x).s := by
  have h := ev.s.timerRequest_aside q p
  unfold Ev.timedWait
  split
  · next s hs =>
    rw [hs] at h
    exact h.via (Ev.fullRelease_aside (ev.on (fun _ => s)) q)
  · next s _ _ hs =>
    rw [hs] at h
    exact h

/-! ### The steps of R113 -/

theorem Ev.modRoute_aside (ev : Ev) (q : Nat) (f : RouteRec → RouteRec) :
    State.Aside q ev.s (ev.on (fun s => s.modRoute q f)).s := ev.s.modRoute_aside q f

theorem Ev.toDanger_aside (ev : Ev) (q : Nat) : State.Aside q ev.s (ev.toDanger q).s :=
  ev.s.writeAspect_aside q .danger

theorem Ev.enterRoute_aside (ev : Ev) (q : Nat) : State.Aside q ev.s (ev.enterRoute q).s :=
  (ev.toDanger_aside q).trans' (Ev.modRoute_aside _ q _)

theorem Ev.routeFault_aside (ev : Ev) (q e : Nat) (x : FaultCause) : State.Aside q ev.s (ev.routeFault q e x).s :=
  ev.s.latch_aside q _

theorem Ev.stepEntry_aside (ev : Ev) (q : Nat) : State.Aside q ev.s (ev.stepEntry q).s := by
  unfold Ev.stepEntry
  dsimp only
  split
  · exact .refl q _
  · split
    · split
      · rw [Ev.routeEvent_s]
        exact (ev.enterRoute_aside q).trans' (Ev.modRoute_aside _ q _)
      · exact (ev.routeFault_aside q _ _).trans' (Ev.enterRoute_aside _ q)
      · split
        · exact ev.routeFault_aside q _ _
        · exact ((ev.routeFault_aside q _ _).trans' (Ev.enterRoute_aside _ q)).trans' (State.freeRequest_aside _ q)
      · exact .refl q _
    · exact .refl q _

theorem Ev.markSection_aside (ev : Ev) (q : Nat) (first : Bool) (x : ListRow) :
    State.Aside q ev.s (ev.markSection q first x).s := by
  unfold Ev.markSection
  dsimp only
  split
  · exact .refl q _
  · split
    · exact ev.modRoute_aside q _
    · exact ev.routeFault_aside q _ _

theorem Ev.stepMarks_aside (ev : Ev) (q : Nat) : State.Aside q ev.s (ev.stepMarks q).s := by
  refine Ev.foldl_aside q _ (fun b x => ?_) _ ev
  split
  · exact b.markSection_aside q _ x
  · exact .refl q _

theorem State.releaseGroup_aside (s : State) (q g : Nat) : State.Aside q s (s.releaseGroup q g) := by
  have hclaims (e : Nat) : ((s.releaseGroup q g).elem e).claims ≤ (s.elem e).claims :=
    (s.releaseGroup_elem q g e).2 ▸ Nat.sub_le _ _
  have hroute (k : Nat) (hk : k ≠ q) : (s.releaseGroup q g).route k = s.route k :=
    (s.releaseGroup_route q g k).trans (if_neg hk)
  have hframe := s.releaseGroup_frame q g
  generalize s.releaseGroup q g = t at hclaims hroute hframe
  have hkept : t.waitList = s.waitList ∧ t.store = s.store ∧ t.transOf = s.transOf := by
    rw [hframe]
    exact ⟨rfl, rfl, rfl⟩
  obtain ⟨hwait, hstore, htrans⟩ := hkept
  exact State.aside_of_untimed hstore hwait hroute hclaims htrans

theorem Ev.stepRelease_aside (ev : Ev) (q : Nat) : State.Aside q ev.s (ev.stepRelease q).s := by
  unfold Ev.stepRelease
  dsimp only
  split
  · split
    · exact .refl q _
    · next last _ _ =>
      generalize ((List.range (ev.s.rrow q).groups).map (· + 1)).filter
        (fun g => ev.s.releaseReady q g && !ev.before.releaseReady q g) = gs
      have h1 : State.Aside q ev.s (ev.on (fun s => gs.foldl (fun s g => s.releaseGroup q g) s)).s := by
        have hfold (l : List Nat) (s : State) : State.Aside q s (l.foldl (fun s g => s.releaseGroup q g) s) := by
          induction l generalizing s with
          | nil => exact .refl q s
          | cons g l ih => exact (s.releaseGroup_aside q g).trans' (ih (s.releaseGroup q g))
        exact hfold gs ev.s
      have h2 := Ev.foldl_groupReleased_s gs.dropLast (ev.on (fun s => gs.foldl (fun s g => s.releaseGroup q g) s)) q
      rw [← h2] at h1
      generalize gs.dropLast.foldl (fun ev g => ev.routeEvent q (.groupReleased g))
        (ev.on (fun s => gs.foldl (fun s g => s.releaseGroup q g) s)) = ev2 at h1
      refine h1.trans' ?_
      split
      · split
        · exact (ev2.s.releaseOverlap_aside q).trans' (Ev.fullRelease_aside
            ((ev2.part (.release q) 0 (fun ev => ev.routeEvent q (.groupReleased last))).on
              (fun s => s.releaseOverlap q)) q)
        · exact (ev2.modRoute_aside q _).trans' (Ev.timedWait_aside
            (ev2.on (fun s => s.modRoute q (fun w => { w with state := .overlapHeld }))) q .overlap _)
      · exact .refl q _
  · exact .refl q _

theorem Ev.stepClear_aside (ev : Ev) (q : Nat) : State.Aside q ev.s (ev.stepClear q).s := by
  unfold Ev.stepClear
  dsimp only
  split
  · split
    · rw [Ev.routeEvent_s]
      exact ev.modRoute_aside q _
    · exact .refl q _
  · split
    · unfold Ev.revert
      rw [Ev.routeEvent_s]
      exact (ev.toDanger_aside q).trans' (Ev.modRoute_aside _ q _)
    · exact .refl q _
  · split
    · exact ev.fullRelease_aside q
    · exact .refl q _
  · exact .refl q _

theorem Ev.evalRoute_aside (ev : Ev) (q : Nat) : State.Aside q ev.s (ev.evalRoute q).s := by
  unfold Ev.evalRoute
  dsimp only
  refine Ev.inOrder_aside q _ _ (fun f hf b => ?_) { ev with offers := [] } 1
  obtain ⟨step, hstep, rfl⟩ := List.mem_map.1 hf
  have hmem : step ∈ [Ev.stepEntry, Ev.stepMarks, Ev.stepRelease, Ev.stepClear] := by
    split at hstep
    · exact hstep
    · exact List.mem_cons_of_mem _ (List.mem_cons_of_mem _ hstep)
  simp only [List.mem_cons, List.not_mem_nil, or_false] at hmem
  rcases hmem with rfl | rfl | rfl | rfl
  · exact b.stepEntry_aside q
  · exact b.stepMarks_aside q
  · exact b.stepRelease_aside q
  · exact b.stepClear_aside q

/-! ### A released route stays off the wait list -/

/-- A route that stands on no wait list is put on none by what it gives back. -/
theorem State.freeRequest_notWaiting {s : State} {r : Nat} (h : s.NotWaiting r) : (s.freeRequest r).NotWaiting r := by
  unfold State.freeRequest
  split
  · next t _ =>
    have hw : (s.modRoute r RouteRec.noTimer).NotWaiting r := h
    obtain ⟨hfree, -⟩ := (State.freeTimer_aside _ (r + 1) t).waiting r (by omega) hw
    exact hfree
  · split
    · exact fun w hw => h w (List.mem_filter.1 hw).1
    · exact h

theorem Ev.fullRelease_notWaiting {ev : Ev} {r : Nat} (h : ev.s.NotWaiting r) : (ev.fullRelease r).s.NotWaiting r := by
  have hkept : ((ev.s.unlockAll r).dropClaims r (fun _ => true)).waitList = ev.s.waitList := by
    have h1 : ev.s.unlockAll r = { ev.s with elems := (ev.s.unlockAll r).elems } := State.foldl_unlock_frame _ ev.s
    have h2 := (ev.s.unlockAll r).dropClaims_frames r (fun _ => true)
    have hw : (ev.s.unlockAll r).waitList = ev.s.waitList := by rw [h1]
    rw [h2]
    exact hw
  have hgiven : (ev.s.givingBack r).NotWaiting r := State.freeRequest_notWaiting (fun w hw => h w (hkept ▸ hw))
  obtain ⟨-, -, -, -, hstate, -⟩ :=
    Ev.endRoute_leaves (ev.on (fun s => s.givingBack r)) r (ev.s.route r) (ev.s.givingBack_groups r).symm
  have hwait : ((ev.on (fun s => s.givingBack r)).endRoute r (ev.s.route r)).s.waitList = (ev.s.givingBack r).waitList := by
    rw [hstate]
    rfl
  exact fun w hw => hgiven w (hwait ▸ hw)

end Sys2Proof.Machine

/-! PROOF SUPPORT. The groups of a route behind a train (R127 to R130): what the conditions of an event read stays through
its end, and the group occupation marks. -/

namespace Sys2Proof.Machine

/-! ### Conditions that no operation of the SE, the FR and the RM touches -/

/-- IN_CONTROL, VACANT and OCCUPIED are read of what the end of an event does not touch (R4). -/
theorem HandedOn.holds {u t : State} (h : HandedOn u t) (e : Nat) :
    t.holds e .inControl = u.holds e .inControl ∧ t.holds e .vacant = u.holds e .vacant ∧
    t.holds e .occupied = u.holds e .occupied := by
  have hbare := h.bare e
  obtain ⟨hkind, hlink, hstate⟩ : t.kind = u.kind ∧ t.elemLink = u.elemLink ∧ t.link = u.link := by
    rw [h.frame]
    exact ⟨rfl, rfl, rfl⟩
  obtain ⟨h1, h2, h3, h4, h5⟩ : (t.elem e).reported = (u.elem e).reported ∧ (t.elem e).restore = (u.elem e).restore ∧
      (t.elem e).nbr = (u.elem e).nbr ∧ (t.elem e).heard = (u.elem e).heard ∧
      (t.elem e).deadline = (u.elem e).deadline := by
    refine ⟨?_, ?_, ?_, ?_, ?_⟩
    · have k := congrArg Elem.reported hbare
      exact k
    · have k := congrArg Elem.restore hbare
      exact k
    · have k := congrArg Elem.nbr hbare
      exact k
    · have k := congrArg Elem.heard hbare
      exact k
    · have k := congrArg Elem.deadline hbare
      exact k
  simp only [State.holds, State.inControl, State.supervised, State.linkHolds, hkind, hlink, hstate, h1, h2, h3, h4, h5,
    and_self]

theorem HandedOn.rows {u t : State} (h : HandedOn u t) : t.rrow = u.rrow ∧ t.pathSections = u.pathSections ∧
    t.firstSection = u.firstSection ∧ t.routeKeyOf = u.routeKeyOf := by
  rw [h.frame]
  exact ⟨rfl, rfl, rfl, rfl⟩

theorem HandedOn.clearOf {u t : State} (h : HandedOn u t) (e : Nat) : t.clearOf e = u.clearOf e := by
  obtain ⟨hcontrol, hvacant, -⟩ := h.holds e
  rw [State.clearOf, hcontrol, hvacant, State.clearOf]

theorem HandedOn.groupVacant {u t : State} (h : HandedOn u t) (r g : Nat) : t.groupVacant r g = u.groupVacant r g := by
  obtain ⟨-, hpath, -⟩ := h.rows
  have hclear : t.clearOf = u.clearOf := funext h.clearOf
  rw [State.groupVacant, hpath, hclear, State.groupVacant]

theorem HandedOn.occupied {u t : State} (h : HandedOn u t) (e : Nat) : t.holds e .occupied = u.holds e .occupied := by
  obtain ⟨-, -, hoccupied⟩ := h.holds e
  exact hoccupied

theorem HandedOn.becomesOccupied {u t : State} (h : HandedOn u t) (s : State) (e : Nat) :
    becomesOccupied s t e = becomesOccupied s u e := by
  rw [Machine.becomesOccupied, h.occupied, Machine.becomesOccupied]

/-- When a group is due reads only such conditions. -/
theorem HandedOn.releaseDue {u t : State} (h : HandedOn u t) (s : State) (r g : Nat) :
    Claims.releaseDue s t r g ↔ Claims.releaseDue s u r g := by
  unfold Claims.releaseDue
  simp only [h.groupVacant, h.occupied]

/-- A section that holds OCCUPIED is not clear (R4, R10). -/
theorem State.clearOf_of_occupied {s : State} {e : Nat} (hk : s.kind e = some .sect) (h : s.holds e .occupied = true) :
    s.clearOf e = false := by
  have hoccupied : (s.elem e).reported = .occupied ∨ (s.elem e).reported = .disturbed := by
    simpa [State.holds, hk] using h
  have hvacant : s.holds e .vacant = false := by
    rcases hoccupied with ho | ho <;> simp [State.holds, hk, ho]
  rw [State.clearOf, hvacant, Bool.and_false]

/-- A group one of whose sections holds OCCUPIED is not VACANT (R127). -/
theorem State.groupVacant_of_occupied {s : State} {r : Nat} {x : ListRow} (hx : x ∈ s.pathSections r)
    (h : s.holds x.target .occupied = true) : s.groupVacant r x.group = false := by
  have hk : s.kind x.target = some .sect := by
    have hsect := (List.mem_filter.1 hx).2
    exact beq_iff_eq.1 hsect
  refine Bool.eq_false_iff.2 fun hall => ?_
  have hclear := List.all_eq_true.1 hall x (List.mem_filter.2 ⟨hx, beq_self_eq_true _⟩)
  rw [State.clearOf_of_occupied hk h] at hclear
  cases hclear

/-! ### Routes that the evaluation leaves alone -/

theorem Ev.stepEntry_of_idle {ev : Ev} {r : Nat}
    (h : (ev.s.route r).state = .free ∨ (ev.s.route r).state = .overlapHeld ∨ (ev.s.route r).state = .inUse) :
    ev.stepEntry r = ev := by
  unfold Ev.stepEntry
  split
  · rfl
  · dsimp only
    split
    · rcases h with h | h | h <;> rw [h]
    · rfl

theorem Ev.stepClear_of_idle {ev : Ev} {r : Nat}
    (h : (ev.s.route r).state = .free ∨ (ev.s.route r).state = .overlapHeld ∨ (ev.s.route r).state = .inUse) :
    ev.stepClear r = ev := by
  unfold Ev.stepClear
  dsimp only
  rcases h with h | h | h <;> rw [h]

theorem Ev.stepMarks_of_dead {ev : Ev} {r : Nat} (h : (ev.s.route r).groupsLive = false) : ev.stepMarks r = ev := by
  unfold Ev.stepMarks
  exact foldl_id _ _ _ fun x _ => if_neg (by rw [h]; exact Bool.false_ne_true)

theorem Ev.stepRelease_of_dead {ev : Ev} {r : Nat} (h : (ev.s.route r).groupsLive = false) : ev.stepRelease r = ev := by
  unfold Ev.stepRelease
  exact if_neg (by rw [h]; exact Bool.false_ne_true)

/-- The steps of the evaluation of a route, those of train entry and group marks only where it was in hand before the
event (R113, R123). -/
def Ev.evalSteps (ev : Ev) (r : Nat) : List (Ev → Ev) :=
  (if (ev.before.route r).state.inMonitor then [Ev.stepEntry, Ev.stepMarks, Ev.stepRelease, Ev.stepClear]
    else [Ev.stepRelease, Ev.stepClear]).map (fun f ev => f ev r)

theorem Ev.evalRoute_s (ev : Ev) (r : Nat) :
    (ev.evalRoute r).s = (({ ev with offers := [] } : Ev).inOrder (.steps r) 1 (ev.evalSteps r)).s := rfl

theorem Ev.inOrder_of_unmoved (a : Ev) (q : Sequence) (fs : List (Ev → Ev))
    (h : ∀ f ∈ fs, f { a with offers := [] } = { a with offers := [] }) (k : Nat) : a.inOrder q k fs = a := by
  induction fs generalizing k with
  | nil => rfl
  | cons f fs ih =>
    rw [Ev.inOrder, Ev.part_of_still (h f (List.mem_cons_self ..))]
    exact ih (fun g hg => h g (List.mem_cons_of_mem _ hg)) (k + 1)

theorem Ev.mem_evalSteps {ev : Ev} {r : Nat} {f : Ev → Ev} (h : f ∈ ev.evalSteps r) :
    f = (fun ev => ev.stepEntry r) ∨ f = (fun ev => ev.stepMarks r) ∨ f = (fun ev => ev.stepRelease r) ∨
      f = (fun ev => ev.stepClear r) := by
  obtain ⟨step, hstep, rfl⟩ := List.mem_map.1 h
  have hmem : step ∈ [Ev.stepEntry, Ev.stepMarks, Ev.stepRelease, Ev.stepClear] := by
    split at hstep
    · exact hstep
    · exact List.mem_cons_of_mem _ (List.mem_cons_of_mem _ hstep)
  simp only [List.mem_cons, List.not_mem_nil, or_false] at hmem
  rcases hmem with rfl | rfl | rfl | rfl
  · exact .inl rfl
  · exact .inr (.inl rfl)
  · exact .inr (.inr (.inl rfl))
  · exact .inr (.inr (.inr rfl))

/-- A route that is FREE or OVERLAP_HELD is touched by no step of R113. -/
theorem Ev.evalRoute_of_idle {ev : Ev} {r : Nat}
    (h : (ev.s.route r).state = .free ∨ (ev.s.route r).state = .overlapHeld) : (ev.evalRoute r).s = ev.s := by
  have hdead : (ev.s.route r).groupsLive = false := by
    unfold RouteRec.groupsLive
    rcases h with h | h <;> rw [h]
  have hidle : (ev.s.route r).state = .free ∨ (ev.s.route r).state = .overlapHeld ∨ (ev.s.route r).state = .inUse :=
    h.imp_right .inl
  rw [Ev.evalRoute_s, Ev.inOrder_of_unmoved { ev with offers := [] } (.steps r) _ fun f hf => ?_]
  rcases Ev.mem_evalSteps hf with rfl | rfl | rfl | rfl
  · exact Ev.stepEntry_of_idle hidle
  · exact Ev.stepMarks_of_dead hdead
  · exact Ev.stepRelease_of_dead hdead
  · exact Ev.stepClear_of_idle hidle

end Sys2Proof.Machine

/-! PROOF SUPPORT. The group occupation marks of a route (R127, R128). -/

namespace Sys2Proof.Machine

theorem GroupState.entered_iff (x : GroupState) : x.entered = true ↔ x ≠ .reserved := by cases x <;> decide

/-- What the marks of the sections that became OCCUPIED leave; `first` is the first section of the route (R128). -/
structure State.Marked (a b : State) (r : Nat) (first : Option Nat) (xs : List ListRow) : Prop where
  frame : b = { a with routes := b.routes, latches := b.latches }
  route : b.route r = { a.route r with groups := (b.route r).groups }
  length : (b.route r).groups.length = (a.route r).groups.length
  kept : ∀ h, 1 ≤ h → (a.route r).groupState h ≠ .reserved →
    (b.route r).groupState h = (a.route r).groupState h
  marked : ∀ h, 1 ≤ h → (a.route r).groupState h = .reserved → (b.route r).groupState h = .reserved ∨
    (b.route r).groupState h = .seen ∧ ∃ x ∈ xs, x.group = h ∧ first ≠ some x.target
  marks : ∀ x ∈ xs, first ≠ some x.target → 2 ≤ x.group → x.group ≤ (a.route r).groups.length →
    (a.route r).groupState (x.group - 1) ≠ .reserved → (b.route r).groupState x.group ≠ .reserved

theorem State.Marked.nil (a : State) (r : Nat) (first : Option Nat) : State.Marked a a r first [] where
  frame := rfl
  route := rfl
  length := rfl
  kept _ _ _ := rfl
  marked _ _ h := .inl h
  marks _ hx := absurd hx List.not_mem_nil

theorem State.Marked.append {a b c : State} {r : Nat} {first : Option Nat} {xs ys : List ListRow}
    (h : State.Marked a b r first xs) (k : State.Marked b c r first ys) : State.Marked a c r first (xs ++ ys) where
  frame := by
    have h1 := h.frame
    have h2 := k.frame
    rw [h1] at h2
    exact h2
  route := by
    have h1 := h.route
    have h2 := k.route
    rw [h1] at h2
    exact h2
  length := k.length.trans h.length
  kept g hg hne := by
    have h1 := h.kept g hg hne
    exact (k.kept g hg (h1 ▸ hne)).trans h1
  marked g hg he := by
    rcases h.marked g hg he with h1 | ⟨h1, x, hx, hxg⟩
    · refine (k.marked g hg h1).imp_right fun ⟨h2, y, hy, hyg⟩ => ⟨h2, y, List.mem_append_right _ hy, hyg⟩
    · exact .inr ⟨(k.kept g hg (by rw [h1]; decide)).trans h1, x, List.mem_append_left _ hx, hxg⟩
  marks x hx hfirst hg hl hpred := by
    rcases List.mem_append.1 hx with hx | hx
    · have h1 := h.marks x hx hfirst hg hl hpred
      rw [k.kept x.group (by omega) h1]
      exact h1
    · refine k.marks x hx hfirst hg (by rw [h.length]; exact hl) ?_
      rw [h.kept (x.group - 1) (by omega) hpred]
      exact hpred

/-- A section that is not the route's first and finds the group RESERVED behind an entered one marks it (R128). -/
theorem Ev.markGroup_marked (a : Ev) (r : Nat) {first : Option Nat} {x : ListRow} (hfirst : first ≠ some x.target)
    (hg : 2 ≤ x.group) (hr : (a.s.route r).groupState x.group = .reserved) :
    State.Marked a.s (a.s.modRoute r (fun w => w.setGroup x.group .seen)) r first [x] := by
  have hroute : (a.s.modRoute r (fun w => w.setGroup x.group .seen)).route r =
      (a.s.route r).setGroup x.group .seen := (State.route_modRoute _ r r _).trans (if_pos rfl)
  have hgroup (h : Nat) (hh : 1 ≤ h) : ((a.s.route r).setGroup x.group .seen).groupState h =
      if h = x.group ∧ x.group ≤ (a.s.route r).groups.length then .seen else (a.s.route r).groupState h := by
    by_cases hl : x.group ≤ (a.s.route r).groups.length
    · rw [RouteRec.groupState_setGroup _ _ (by omega) hl hh]
      simp only [hl, and_true]
    · rw [if_neg (fun h => hl h.2)]
      unfold RouteRec.setGroup
      rw [List.set_eq_of_length_le (by omega)]
  refine ⟨rfl, ?_, ?_, fun h hh hne => ?_, fun h hh he => ?_, fun y hy _ _ hl _ => ?_⟩ <;>
    rw [hroute]
  · rfl
  · exact RouteRec.setGroup_length _ _ _
  · rw [hgroup h hh, if_neg]
    rintro ⟨rfl, -⟩
    exact hne hr
  · rw [hgroup h hh]
    split
    · next hx =>
      obtain ⟨rfl, -⟩ := hx
      exact .inr ⟨rfl, x, List.mem_singleton_self x, rfl, hfirst⟩
    · exact .inl he
  · obtain rfl := List.mem_singleton.1 hy
    rw [hgroup y.group (by omega), if_pos ⟨rfl, hl⟩]
    decide

theorem Ev.markSection_marked (a : Ev) (r : Nat) (first : Option Nat) (x : ListRow) :
    State.Marked a.s (a.markSection r (first == some x.target) x).s r first [x] := by
  have hself (b : Ev) (hs : b.s = { a.s with latches := b.s.latches })
      (hm : first ≠ some x.target → 2 ≤ x.group → (a.s.route r).groupState (x.group - 1) ≠ .reserved →
        (a.s.route r).groupState x.group ≠ .reserved) : State.Marked a.s b.s r first [x] := by
    have hroute : b.s.route = a.s.route := by
      rw [hs]
      rfl
    refine ⟨?_, ?_, ?_, fun h _ _ => ?_, fun h _ he => ?_, fun y hy hf hg _ hp => ?_⟩
    · rw [hs]
    · rw [hroute]
    · rw [hroute]
    · rw [hroute]
    · rw [hroute]
      exact .inl he
    · obtain rfl := List.mem_singleton.1 hy
      rw [hroute]
      exact hm hf hg hp
  unfold Ev.markSection
  dsimp only
  split
  · next h =>
    refine hself a rfl fun hf _ _ => ?_
    simpa [hf] using h
  · next h =>
    simp only [Bool.or_eq_true, beq_iff_eq, bne_iff_ne, ne_eq, not_or, not_not] at h
    obtain ⟨hfirst, hr⟩ := h
    split
    · next hg =>
      simp only [Bool.and_eq_true, decide_eq_true_eq] at hg
      exact a.markGroup_marked r hfirst hg.1 hr
    · next hg =>
      refine hself _ rfl fun _ h2 hp => absurd ?_ hg
      rw [(GroupState.entered_iff _).2 hp, Bool.and_true, decide_eq_true h2]

/-- The sections of a route that became OCCUPIED (R128). -/
def Ev.hits (ev : Ev) (r : Nat) : List ListRow :=
  (ev.s.pathSections r).filter (fun x => becomesOccupied ev.before ev.s x.target)

theorem Ev.foldl_marked (r : Nat) (first : Option Nat) (xs : List ListRow) (a : Ev)
    (h : (a.s.route r).state = .inUse) : State.Marked a.s (xs.foldl (fun ev x =>
      if (ev.s.route r).groupsLive then ev.markSection r (first == some x.target) x else ev) a).s r first xs := by
  induction xs generalizing a with
  | nil => exact .nil a.s r first
  | cons x xs ih =>
    have hlive : (a.s.route r).groupsLive = true := by
      unfold RouteRec.groupsLive
      rw [h]
    have hone := a.markSection_marked r first x
    rw [List.foldl_cons, if_pos hlive]
    refine hone.append (ih _ ?_)
    rw [hone.route]
    exact h

theorem Ev.stepMarks_marked (ev : Ev) (r : Nat) (h : (ev.s.route r).state = .inUse) :
    State.Marked ev.s (ev.stepMarks r).s r (ev.s.firstSection r) (ev.hits r) :=
  Ev.foldl_marked r (ev.s.firstSection r) (ev.hits r) ev h

end Sys2Proof.Machine

/-! PROOF SUPPORT. The groups of a route in IN_USE from the beginning of an event to its evaluation: which of them are
released (R127 to R131). -/

namespace Sys2Proof.Machine

/-- The record of a Route Report on a route's GROUP_RELEASED or RELEASED (R74). -/
def State.groupReport (s : State) (r : Nat) (x : RouteEvent) (d k : Bool) : Report :=
  .route { route := r, key := s.routeKeyOf r, event := x, origin := (s.route r).origin, deferred := d, clamped := k }

/-- A group has been released: its elements are unlocked and its claims dropped (R131). -/
structure State.Gone (s : State) (r g : Nat) (t : State) : Prop where
  unlocked : ∀ e, Claims.inGroup s r g e → (t.elem e).lockOwner = none
  dropped : ∀ e, (t.elem e).claims ≤
    (s.elem e).claims - ((s.route r).flank.filter (fun f => f.elem == e && f.group == .group g)).length
  flank : ∀ f ∈ (t.route r).flank, f.group ≠ .group g

/-- A group was RESERVED before the event and one of its sections becomes OCCUPIED behind an entered group (R128). -/
def State.newlySeen (s v : State) (r h : Nat) : Prop :=
  ∃ x ∈ s.pathSections r, x.group = h ∧ s.firstSection r ≠ some x.target ∧ s.holds x.target .occupied = false ∧
    v.holds x.target .occupied = true

/-- Every group of a route is RELEASED before the event or due at it. -/
def State.allGone (s v : State) (r : Nat) : Prop :=
  ∀ h, 1 ≤ h → h ≤ (s.rrow r).groups → (s.route r).groupState h = .released ∨ Claims.releaseDue s v r h

/-- No context and no other route in hand speaks for the destination of a route. -/
def State.Alone (s : State) (r : Nat) : Prop :=
  (∀ c x, s.ctx c = some x → (s.rrow x.route).start ≠ (s.rrow r).dest ∧ (s.rrow x.route).dest ≠ (s.rrow r).dest) ∧
    ∀ q, q ≠ r → (s.route q).state ≠ .free → (s.rrow q).dest ≠ (s.rrow r).dest

/-- The transaction of a route's destination stands as before the event, and no other route in hand speaks for it. -/
def State.Unspoken (s : State) (r : Nat) (t : State) : Prop :=
  t.transOf (s.rrow r).dest = s.transOf (s.rrow r).dest ∧
    ∀ q, q ≠ r → (t.route q).state ≠ .free → (s.rrow q).dest ≠ (s.rrow r).dest

/-- A route in IN_USE on its way through the event from s, whose causes led to v: its groups stand as before the event, are
marked, or have been released as they were due. -/
structure State.Behind (s v : State) (r : Nat) (t : State) : Prop where
  handed : HandedOn v t
  state : (t.route r).state = .inUse
  origin : (t.route r).origin = (s.route r).origin
  length : (t.route r).groups.length = (s.rrow r).groups
  waits : t.NotWaiting r
  groups : ∀ h, 1 ≤ h → (t.route r).groupState h = (s.route r).groupState h ∨
    (s.route r).groupState h = .reserved ∧ (t.route r).groupState h = .seen ∧ s.newlySeen v r h ∨
    (t.route r).groupState h = .released ∧ Claims.releaseDue s v r h
  claims : ∀ e, (t.elem e).claims ≤ (s.elem e).claims
  flank : ∀ h, 1 ≤ h → (t.route r).groupState h ≠ .released → ∀ e,
    (t.route r).flank.filter (fun f => f.elem == e && f.group == .group h) =
      (s.route r).flank.filter (fun f => f.elem == e && f.group == .group h)
  overlap : ∀ f ∈ (s.route r).flank, f.group = .overlap → f ∈ (t.route r).flank
  gone : ∀ h, 1 ≤ h → h ≤ (s.rrow r).groups → Claims.releaseDue s v r h → (t.route r).groupState h = .released →
    s.Gone r h t
  border : s.Alone r → s.Unspoken r t

/-- The same of the event record: the groups released at the event are reported, and they are not all. -/
structure Ev.Behind (s v : State) (r : Nat) (b : Ev) : Prop where
  before : b.before = s
  stands : s.Behind v r b.s
  raised : ∀ h, 1 ≤ h → h ≤ (s.rrow r).groups → Claims.releaseDue s v r h → (b.s.route r).groupState h = .released →
    ∃ d k, b.raised .route (s.groupReport r (.groupReleased h) d k)
  more : ∀ h, 1 ≤ h → h ≤ (s.rrow r).groups → Claims.releaseDue s v r h → (b.s.route r).groupState h = .released →
    ¬ s.allGone v r

section

variable {s v : State} {r : Nat}

theorem becomesOccupied_iff (s v : State) (e : Nat) : becomesOccupied s v e = true ↔
    s.holds e .occupied = false ∧ v.holds e .occupied = true := by
  rw [becomesOccupied, Bool.and_eq_true, Bool.not_eq_true']
  exact And.comm

/-- A newly seen group is not VACANT. -/
theorem State.newlySeen.notVacant {h : Nat} (hpath : v.pathSections = s.pathSections) (hn : s.newlySeen v r h) :
    v.groupVacant r h = false := by
  obtain ⟨x, hx, rfl, -, -, hocc⟩ := hn
  exact State.groupVacant_of_occupied (hpath ▸ hx) hocc

/-- The groups of a route after the group marks, told by those before the event. -/
theorem State.Behind.marked {a : State} {b : Ev} (hb : s.Behind v r b.s) (hbefore : b.before = s) (hrows : v.pathSections = s.pathSections)
    (hfirst : v.firstSection = s.firstSection) (hm : State.Marked b.s a r (b.s.firstSection r) (b.hits r)) (h : Nat)
    (hh : 1 ≤ h) : (a.route r).groupState h = (s.route r).groupState h ∨
      (s.route r).groupState h = .reserved ∧ (a.route r).groupState h = .seen ∧ s.newlySeen v r h ∨
      (a.route r).groupState h = .released ∧ Claims.releaseDue s v r h := by
  obtain ⟨-, hpath, hfirst', -⟩ := hb.handed.rows
  by_cases hr : (b.s.route r).groupState h = .reserved
  · have hs : (s.route r).groupState h = .reserved := by
      rcases hb.groups h hh with h1 | ⟨h1, -⟩ | ⟨h1, -⟩
      · rw [← h1, hr]
      · exact h1
      · rw [hr] at h1
        cases h1
    rcases hm.marked h hh hr with h1 | ⟨h1, x, hx, hxg, hxf⟩
    · exact .inl (h1.trans hs.symm)
    · obtain ⟨hx, hocc⟩ := List.mem_filter.1 hx
      rw [hbefore, hb.handed.becomesOccupied, becomesOccupied_iff] at hocc
      rw [hpath, hrows] at hx
      rw [hfirst', hfirst] at hxf
      exact .inr (.inl ⟨hs, h1, x, hx, hxg, hxf, hocc⟩)
  · rw [hm.kept h hh hr]
    exact hb.groups h hh

/-- A group whose release conditions hold after the marks and did not before the event is due (R129, R130). -/
theorem State.Behind.due_of_ready {a : State} {b : Ev} (hb : s.Behind v r b.s) (hbefore : b.before = s) (hrows : v.rrow = s.rrow)
    (hpaths : v.pathSections = s.pathSections) (hfirst : v.firstSection = s.firstSection)
    (hm : State.Marked b.s a r (b.s.firstSection r) (b.hits r)) (hva : HandedOn v a) {h : Nat} (hh : 1 ≤ h)
    (hready : a.releaseReady r h = true) (hs : s.releaseReady r h = false) : Claims.releaseDue s v r h := by
  obtain ⟨hrow, -⟩ := hva.rows
  unfold State.releaseReady at hready hs
  dsimp only at hready hs
  rw [hva.groupVacant, hrow, hrows, hva.occupied] at hready
  simp only [Bool.and_eq_true, beq_iff_eq] at hready
  obtain ⟨⟨hseen, hvacant⟩, hnext⟩ := hready
  have hseen' : (s.route r).groupState h = .seen := by
    rcases hb.marked hbefore hpaths hfirst hm h hh with h1 | ⟨-, -, hn⟩ | ⟨h1, -⟩
    · rw [← h1, hseen]
    · rw [hn.notVacant hpaths] at hvacant
      cases hvacant
    · rw [hseen] at h1
      cases h1
  refine ⟨hseen', hvacant, ?_⟩
  rw [hseen', beq_self_eq_true, Bool.true_and, Bool.and_eq_false_iff] at hs
  by_cases hlt : h < (s.rrow r).groups
  · rw [if_pos hlt] at hnext hs ⊢
    by_cases hentered : ((s.route r).groupState (h + 1)).entered = true
    · exact .inl ⟨hentered, hs.resolve_right (by rw [hentered]; decide)⟩
    · have hreserved : (s.route r).groupState (h + 1) = .reserved := by
        rw [GroupState.entered_iff] at hentered
        exact not_not.1 hentered
      rcases hb.marked hbefore hpaths hfirst hm (h + 1) (by omega) with h1 | ⟨-, -, hn⟩ | ⟨-, hd⟩
      · rw [h1] at hnext
        exact absurd hnext hentered
      · exact .inr ⟨hreserved, hn⟩
      · obtain ⟨hd, -⟩ := hd
        rw [hreserved] at hd
        cases hd
  · rw [if_neg hlt] at hnext hs ⊢
    exact ⟨hnext, hs⟩

/-- A group that is due and not yet released is ready after the marks, and was not before the event. -/
theorem State.Behind.ready_of_due {a : State} {b : Ev} (hb : s.Behind v r b.s) (hbefore : b.before = s) (hrows : v.rrow = s.rrow)
    (hpaths : v.pathSections = s.pathSections) (hfirst : v.firstSection = s.firstSection)
    (hm : State.Marked b.s a r (b.s.firstSection r) (b.hits r)) (hva : HandedOn v a) {h : Nat} (hh : 1 ≤ h)
    (hdue : Claims.releaseDue s v r h) (hnot : (b.s.route r).groupState h ≠ .released) :
    a.releaseReady r h = true ∧ s.releaseReady r h = false := by
  obtain ⟨hseen, hvacant, hnext⟩ := hdue
  obtain ⟨hrow, -⟩ := hva.rows
  have hb' : (b.s.route r).groupState h = .seen := by
    rcases hb.groups h hh with h1 | ⟨h1, -⟩ | ⟨h1, -⟩
    · rw [h1, hseen]
    · rw [hseen] at h1
      cases h1
    · exact absurd h1 hnot
  have ha : (a.route r).groupState h = .seen := by
    rw [hm.kept h hh (by rw [hb']; decide), hb']
  unfold State.releaseReady
  dsimp only
  rw [hva.groupVacant, hrow, hrows, hva.occupied, ha, hseen, hvacant]
  by_cases hlt : h < (s.rrow r).groups
  · rw [if_pos hlt] at hnext
    rw [if_pos hlt, if_pos hlt]
    rcases hnext with ⟨hentered, hv⟩ | ⟨hreserved, x, hx, hxg, hxf, hocc⟩
    · refine ⟨?_, by rw [hv]; rfl⟩
      have hn : (b.s.route r).groupState (h + 1) ≠ .reserved := by
        rcases hb.groups (h + 1) (by omega) with h1 | ⟨-, h1, -⟩ | ⟨h1, -⟩
        · rw [h1]
          exact (GroupState.entered_iff _).1 hentered
        · rw [h1]
          decide
        · rw [h1]
          decide
      rw [hm.kept (h + 1) (by omega) hn, (GroupState.entered_iff _).2 hn]
      rfl
    · refine ⟨?_, by rw [hreserved]; simp [GroupState.entered]⟩
      obtain ⟨-, hpath, hfirst', -⟩ := hb.handed.rows
      have hhit : x ∈ b.hits r := by
        refine List.mem_filter.2 ⟨by rw [hpath, hpaths]; exact hx, ?_⟩
        rw [hbefore, hb.handed.becomesOccupied]
        exact (becomesOccupied_iff s v _).2 hocc
      have hmark := hm.marks x hhit (by rw [hfirst', hfirst]; exact hxf) (by omega)
        (by rw [hb.length, hxg]; omega) (by rw [hxg, Nat.add_sub_cancel, hb']; decide)
      rw [hxg] at hmark
      rw [(GroupState.entered_iff _).2 hmark]
      rfl
  · rw [if_neg hlt] at hnext
    rw [if_neg hlt, if_neg hlt]
    obtain ⟨hberth, hor⟩ := hnext
    refine ⟨by rw [hberth]; rfl, ?_⟩
    rw [beq_self_eq_true, Bool.true_and, Bool.and_eq_false_iff]
    exact hor

end

end Sys2Proof.Machine

/-! PROOF SUPPORT. The evaluation of a route in IN_USE (R127 to R134): the two ends it can come to. -/

namespace Sys2Proof.Machine

/-! ### The tables in force -/

/-- Two states with the same tables in force. -/
def State.SameTables (s t : State) : Prop := t.store = s.store ∧ t.tablesValid = s.tablesValid

theorem HandedOn.sameTables {u t : State} (h : HandedOn u t) : u.SameTables t := by
  rw [h.frame]
  exact ⟨rfl, rfl⟩

theorem State.SameTables.trans {s t u : State} (h : s.SameTables t) (k : t.SameTables u) : s.SameTables u :=
  ⟨k.1.trans h.1, k.2.trans h.2⟩

theorem State.SameTables.kind {s t : State} (h : s.SameTables t) : t.kind = s.kind := by
  obtain ⟨h1, h2⟩ := h
  unfold State.kind State.elemCount State.erow
  rw [h1, h2]

theorem State.SameTables.rrow {s t : State} (h : s.SameTables t) : t.rrow = s.rrow := by
  obtain ⟨h1, -⟩ := h
  unfold State.rrow
  rw [h1]

theorem State.SameTables.pathSections {s t : State} (h : s.SameTables t) : t.pathSections = s.pathSections := by
  unfold State.pathSections State.isSection
  rw [h.rrow, h.kind, h.1]

theorem State.SameTables.firstSection {s t : State} (h : s.SameTables t) : t.firstSection = s.firstSection := by
  unfold State.firstSection
  rw [h.pathSections]

theorem State.SameTables.routeKeyOf {s t : State} (h : s.SameTables t) : t.routeKeyOf = s.routeKeyOf := by
  unfold State.routeKeyOf State.desig State.erow
  rw [h.rrow, h.1]

theorem State.SameTables.routeKind {s t : State} (h : s.SameTables t) : t.routeKind = s.routeKind := by
  unfold State.routeKind State.routeCount
  rw [h.rrow, h.1, h.2]

theorem State.SameTables.elemLink {s t : State} (h : s.SameTables t) : t.elemLink = s.elemLink ∧ t.pointByte = s.pointByte := by
  unfold State.elemLink State.pointByte State.erow
  rw [h.1]
  exact ⟨rfl, rfl⟩

theorem State.SameTables.inGroup {s t : State} (h : s.SameTables t) (r g e : Nat) :
    Claims.inGroup t r g e ↔ Claims.inGroup s r g e := by
  unfold Claims.inGroup
  rw [h.rrow, h.kind, h.1]

/-- An element without a lock owner keeps none through the end of an event. -/
theorem HandedOn.unlocked {u t : State} (h : HandedOn u t) {e : Nat} (he : (u.elem e).lockOwner = none) :
    (t.elem e).lockOwner = none := by
  by_contra hne
  obtain ⟨r, hr⟩ := Option.ne_none_iff_exists'.1 hne
  have hl := h.lock e r hr
  rw [he] at hl
  cases hl

/-! ### The timer of the overlap -/

theorem State.grantTimer_overlap {s : State} {t r : Nat} (hw : s.NotWaiting r) :
    (s.grantTimer t r .overlap).OverlapWaits r := by
  obtain ⟨-, hwait, htimer, hpurpose, -⟩ := s.grantTimer_gives t r .overlap
  refine ⟨fun w hm hr => ?_, hpurpose, .inl (by rw [htimer]; exact Option.some_ne_none t)⟩
  rw [hwait] at hm
  exact absurd hr (hw w hm)

/-- A route that stands on no wait list and asks for the timer of its overlap holds it or joins the list (R66). -/
theorem State.timerRequest_overlap {s : State} {r : Nat} (hw : s.NotWaiting r) (h : s.requiredMs r .overlap ≠ 0) :
    (s.timerRequest r .overlap).1.OverlapWaits r := by
  have hany : (s.waitList.any (fun w => w.route == r)) = false := by
    rw [List.any_eq_false]
    exact fun w hm => by rw [beq_iff_eq]; exact hw w hm
  unfold State.timerRequest
  rw [if_neg h]
  split
  · exact State.grantTimer_overlap hw
  · rw [hany, if_neg Bool.false_ne_true]
    split
    · exact State.grantTimer_overlap hw
    · have hroute : (s.modRoute r (fun w => { w with purpose := .overlap, deferred := true })).route r =
          { s.route r with purpose := .overlap, deferred := true } := (State.route_modRoute s r r _).trans (if_pos rfl)
      generalize s.modRoute r (fun w => { w with purpose := .overlap, deferred := true }) = t at hroute
      have hr : ({ t with waitList := s.waitList ++ [⟨r, .overlap⟩] } : State).route r = t.route r := rfl
      refine ⟨fun w hm hwr => ?_, ?_, .inr ?_⟩
      · rcases List.mem_append.1 hm with hm | hm
        · exact absurd hwr (hw w hm)
        · rw [List.mem_singleton.1 hm]
      · rw [hr, hroute]
      · rw [hr, hroute]

/-! ### The steps of the evaluation -/

/-- The groups whose release conditions have come to hold at the event, ascending (R129, R130). -/
def Ev.readyGroups (ev : Ev) (r : Nat) : List Nat :=
  ((List.range (ev.s.rrow r).groups).map (· + 1)).filter
    (fun g => ev.s.releaseReady r g && !ev.before.releaseReady r g)

/-- What follows the release of groups, the last of which is given (R131, R132). -/
def Ev.afterGroups (ev : Ev) (r last : Nat) : Ev :=
  if (ev.s.route r).groups.all (· == .released) then
    if (ev.s.rrow r).ovTime = 0 then
      (ev.part (.release r) 0 (fun ev => ev.routeEvent r (.groupReleased last))).endOverlap r
    else
      (ev.on (fun s => s.modRoute r (fun w => { w with state := .overlapHeld }))).timedWait r .overlap
        (.groupReleased last)
  else ev.routeEvent r (.groupReleased last)

theorem Ev.mem_readyGroups {ev : Ev} {r g : Nat} : g ∈ ev.readyGroups r ↔
    (1 ≤ g ∧ g ≤ (ev.s.rrow r).groups) ∧ ev.s.releaseReady r g = true ∧ ev.before.releaseReady r g = false := by
  unfold Ev.readyGroups
  rw [List.mem_filter, List.mem_map, Bool.and_eq_true, Bool.not_eq_true']
  refine and_congr_left fun _ => ⟨?_, fun ⟨h1, h2⟩ => ⟨g - 1, List.mem_range.2 (by omega), by omega⟩⟩
  rintro ⟨k, hk, rfl⟩
  have := List.mem_range.1 hk
  omega

theorem Ev.stepRelease_of_none {ev : Ev} {r : Nat} (h : ev.readyGroups r = []) : ev.stepRelease r = ev := by
  unfold Ev.stepRelease
  dsimp only
  unfold Ev.readyGroups at h
  rw [h]
  exact ite_self _

/-- The groups that are ready are released, and reported one by one. -/
theorem Ev.stepRelease_of_some {ev : Ev} {r last : Nat} {gs : List Nat} (hlive : (ev.s.route r).groupsLive = true)
    (h : ev.readyGroups r = gs ++ [last]) : ev.stepRelease r =
      (gs.foldl (fun ev g => ev.routeEvent r (.groupReleased g))
        (ev.on (fun s => (gs ++ [last]).foldl (fun s g => s.releaseGroup r g) s))).afterGroups r last := by
  unfold Ev.stepRelease
  dsimp only
  rw [if_pos hlive]
  unfold Ev.readyGroups at h
  rw [h]
  simp only [List.reverse_append, List.reverse_singleton, List.singleton_append, List.dropLast_concat]
  rfl

theorem Ev.foldl_groupReleased_offers (gs : List Nat) (ev : Ev) (r : Nat) :
    ev.offers <+: (gs.foldl (fun ev g => ev.routeEvent r (.groupReleased g)) ev).offers := by
  induction gs generalizing ev with
  | nil => exact List.prefix_rfl
  | cons g gs ih => exact (List.prefix_append _ _).trans (ih (ev.routeEvent r (.groupReleased g)))

/-- A report of a group, before the event's record is reset. -/
theorem Ev.raised_routeEvent (ev : Ev) (r : Nat) (x : RouteEvent) : (ev.routeEvent r x).raised .route
    (ev.s.groupReport r x (ev.s.route r).deferred (ev.s.route r).clamped) := Ev.raised_raise ev .route _ rfl

theorem Ev.foldl_groupReleased_raised (gs : List Nat) (ev : Ev) (r g : Nat) (hg : g ∈ gs) :
    (gs.foldl (fun ev g => ev.routeEvent r (.groupReleased g)) ev).raised .route
      (ev.s.groupReport r (.groupReleased g) (ev.s.route r).deferred (ev.s.route r).clamped) := by
  induction gs generalizing ev with
  | nil => exact absurd hg List.not_mem_nil
  | cons h gs ih =>
    rcases List.mem_cons.1 hg with rfl | hg
    · exact Ev.raised_mono (Ev.foldl_groupReleased_offers gs _ r) (ev.raised_routeEvent r (.groupReleased g))
    · exact ih (ev.routeEvent r (.groupReleased h)) hg

/-- The reports of the steps of a route's evaluation are among those of the event (R114). -/
theorem Ev.raised_evalRoute (ev : Ev) (r : Nat) {src : Src} {x : Report}
    (h : (({ ev with offers := [] } : Ev).inOrder (.steps r) 1 (ev.evalSteps r)).raised src x) :
    (ev.evalRoute r).raised src x := by
  obtain ⟨o, ho, hx⟩ := h
  refine ⟨o, ?_, hx⟩
  change o ∈ ev.offers ++ List.filter Offer.isFault _ ++ List.filter (fun o => !o.isFault) _
  rw [List.append_assoc]
  refine List.mem_append_right _ ?_
  by_cases hf : o.isFault = true
  · exact List.mem_append_left _ (List.mem_filter.2 ⟨ho, hf⟩)
  · exact List.mem_append_right _ (List.mem_filter.2 ⟨ho, by rw [Bool.not_eq_true'] ; exact Bool.eq_false_iff.2 hf⟩)

theorem Ev.evalRoute_offers (ev : Ev) (r : Nat) : ev.offers <+: (ev.evalRoute r).offers := by
  change ev.offers <+: ev.offers ++ List.filter Offer.isFault _ ++ List.filter (fun o => !o.isFault) _
  rw [List.append_assoc]
  exact List.prefix_append _ _

/-- The evaluation of a route in IN_USE is the release of its groups after the group marks, where it ends in IN_USE,
OVERLAP_HELD or FREE. -/
theorem Ev.evalRoute_of_inUse {ev : Ev} {r : Nat} (hb : (ev.before.route r).state.inMonitor = true)
    (h : (ev.s.route r).state = .inUse) :
    ∃ a : Ev, a.before = ev.before ∧ HandedOn ev.s a.s ∧
      State.Marked ev.s a.s r (ev.s.firstSection r) (ev.hits r) ∧ State.Aside r ev.s a.s ∧
      (((a.stepRelease r).s.route r).state = .free ∨ ((a.stepRelease r).s.route r).state = .overlapHeld ∨
          ((a.stepRelease r).s.route r).state = .inUse →
        (ev.evalRoute r).s = (a.stepRelease r).s ∧
        ∀ src x, (a.stepRelease r).raised src x → (ev.evalRoute r).raised src x) := by
  have hentry : ({ ev with offers := [] } : Ev).part (.steps r) 1 (fun ev => ev.stepEntry r) = { ev with offers := [] } :=
    Ev.part_of_still (Ev.stepEntry_of_idle (ev := { ev with offers := [] }) (.inr (.inr h)))
  have hsteps : ev.evalSteps r = [fun ev => ev.stepEntry r, fun ev => ev.stepMarks r, fun ev => ev.stepRelease r,
      fun ev => ev.stepClear r] := by
    unfold Ev.evalSteps
    rw [if_pos hb]
    rfl
  have hstate := ev.evalRoute_s r
  have hraised := fun src x => Ev.raised_evalRoute ev r (src := src) (x := x)
  rw [hsteps, Ev.inOrder, hentry] at hstate
  rw [hsteps, Ev.inOrder, hentry] at hraised
  have hbefore := Ev.stepMarks_before { ev with offers := [] } r
  have hhanded := Ev.stepMarks_handedOn { ev with offers := [] } r
  have hmarked := Ev.stepMarks_marked { ev with offers := [] } r h
  have haside := Ev.stepMarks_aside { ev with offers := [] } r
  have hm : (({ ev with offers := [] } : Ev).part (.steps r) 2 (fun ev => ev.stepMarks r)).before =
      (({ ev with offers := [] } : Ev).stepMarks r).before := rfl
  have hm' : (({ ev with offers := [] } : Ev).part (.steps r) 2 (fun ev => ev.stepMarks r)).s =
      (({ ev with offers := [] } : Ev).stepMarks r).s := rfl
  rw [Ev.inOrder] at hstate
  rw [Ev.inOrder] at hraised
  rw [← hm'] at hhanded hmarked haside
  rw [← hm] at hbefore
  generalize (({ ev with offers := [] } : Ev).part (.steps r) 2 (fun ev => ev.stepMarks r)) = a at *
  refine ⟨{ a with offers := [] }, hbefore, hhanded, hmarked, haside, fun hend => ?_⟩
  have hc : (({ a with offers := [] } : Ev).stepRelease r).s = (a.part (.steps r) 3 (fun ev => ev.stepRelease r)).s := rfl
  have hp := fun src x => Ev.raised_part a (.steps r) 3 (fun ev => ev.stepRelease r) (src := src) (r := x)
  rw [Ev.inOrder] at hstate
  rw [Ev.inOrder] at hraised
  rw [hc] at hend ⊢
  generalize (a.part (.steps r) 3 (fun ev => ev.stepRelease r)) = c at *
  rw [Ev.inOrder, Ev.part_of_still (Ev.stepClear_of_idle (ev := { c with offers := [] }) hend), Ev.inOrder] at hstate
  rw [Ev.inOrder, Ev.part_of_still (Ev.stepClear_of_idle (ev := { c with offers := [] }) hend), Ev.inOrder] at hraised
  exact ⟨hstate, fun src x hx => hraised src x (hp src x hx)⟩

end Sys2Proof.Machine

/-! PROOF SUPPORT. The groups of a route in IN_USE through its evaluation (R127 to R131): the marks and the releases. -/

namespace Sys2Proof.Machine

section

variable {s v : State} {r : Nat}

theorem State.Gone.mono {g : Nat} {t u : State} (h : s.Gone r g t)
    (lock : ∀ e, (t.elem e).lockOwner = none → (u.elem e).lockOwner = none)
    (claims : ∀ e, (u.elem e).claims ≤ (t.elem e).claims) (flank : ∀ f ∈ (u.route r).flank, f ∈ (t.route r).flank) :
    s.Gone r g u where
  unlocked e he := lock e (h.unlocked e he)
  dropped e := (claims e).trans (h.dropped e)
  flank f hf := h.flank f (flank f hf)

/-! ### The group marks -/

/-- The marks touch neither the elements nor what a route has waiting. -/
theorem State.Marked.kept_fields {a b : State} {first : Option Nat} {xs : List ListRow} (h : State.Marked a b r first xs) :
    b.elem = a.elem ∧ b.waitList = a.waitList ∧ b.transOf = a.transOf := by
  rw [h.frame]
  exact ⟨rfl, rfl, rfl⟩

theorem State.Marked.record {a b : State} {first : Option Nat} {xs : List ListRow} (h : State.Marked a b r first xs) :
    (b.route r).state = (a.route r).state ∧ (b.route r).origin = (a.route r).origin ∧
    (b.route r).flank = (a.route r).flank := by
  rw [h.route]
  exact ⟨rfl, rfl, rfl⟩

/-- After the marks the route stands as before them, but for the groups newly seen. -/
theorem State.Behind.of_marked {b : Ev} (hb : s.Behind v r b.s) (hbefore : b.before = s) (hs : s.SameTables v) {a : State}
    (hm : State.Marked b.s a r (b.s.firstSection r) (b.hits r)) (ha : HandedOn v a) (hasd : State.Aside r b.s a) :
    s.Behind v r a := by
  obtain ⟨helem, hwait, htrans⟩ := hm.kept_fields
  obtain ⟨hstate, horigin, hflank⟩ := hm.record
  have hgroups := hb.marked hbefore hs.pathSections hs.firstSection hm
  exact {
    handed := ha
    state := hstate.trans hb.state
    origin := horigin.trans hb.origin
    length := hm.length.trans hb.length
    waits := fun w hw => hb.waits w (hwait ▸ hw)
    groups := hgroups
    claims := fun e => by rw [helem]; exact hb.claims e
    flank := fun h hh hn e => by
      rw [hflank]
      refine hb.flank h hh (fun hr => hn ?_) e
      rw [hm.kept h hh (by rw [hr]; decide), hr]
    overlap := fun f hf ho => by rw [hflank]; exact hb.overlap f hf ho
    gone := fun h hh hl hd hr => by
      have hr' : (b.s.route r).groupState h = .released := by
        by_cases h1 : (b.s.route r).groupState h = .reserved
        · rcases hm.marked h hh h1 with h2 | ⟨h2, -⟩ <;> rw [hr] at h2 <;> cases h2
        · rw [← hm.kept h hh h1, hr]
      exact (hb.gone h hh hl hd hr').mono (fun e he => by rw [helem]; exact he) (fun e => by rw [helem])
        (fun f hf => hflank ▸ hf)
    border := fun h => by
      obtain ⟨h1, h2⟩ := hb.border h
      refine ⟨by rw [htrans]; exact h1, fun q hq hn => h2 q hq ?_⟩
      rw [← (RouteRec.sameButTimer_fields (hasd.others q hq)).1]
      exact hn }

/-! ### The release of the groups that are due -/

theorem State.GroupsReleased.gone {m t : State} {gs : List Nat} (hs : s.SameTables m) (k : m.GroupsReleased t r gs)
    {g : Nat} (hg : g ∈ gs) (hclaims : ∀ e, (m.elem e).claims ≤ (s.elem e).claims)
    (hflank : ∀ e, (m.route r).flank.filter (fun f => f.elem == e && f.group == .group g) =
      (s.route r).flank.filter (fun f => f.elem == e && f.group == .group g)) : s.Gone r g t where
  unlocked e he := k.unlocked g hg e ((hs.inGroup r g e).2 he)
  dropped e := by
    have h := k.dropped g hg e
    rw [hflank] at h
    exact h.trans (Nat.sub_le_sub_right (hclaims e) _)
  flank f hf he := by
    rw [k.flank] at hf
    have hall := List.all_eq_true.1 (List.mem_filter.1 hf).2 g hg
    rw [he] at hall
    exact absurd rfl (bne_iff_ne.1 hall)

theorem State.GroupsReleased.gone_kept {m t : State} {gs : List Nat} (k : m.GroupsReleased t r gs) {g : Nat}
    (h : s.Gone r g m) : s.Gone r g t :=
  h.mono k.lock k.claims fun _ hf => (List.mem_filter.1 (k.flank ▸ hf)).1

theorem State.GroupsReleased.record {m t : State} {gs : List Nat} (k : m.GroupsReleased t r gs) :
    (t.route r).state = (m.route r).state ∧ (t.route r).origin = (m.route r).origin ∧
    t.waitList = m.waitList ∧ t.transOf = m.transOf := by
  have hself : (t.route r).state = (m.route r).state ∧ (t.route r).origin = (m.route r).origin := by
    rw [k.route]
    exact ⟨rfl, rfl⟩
  obtain ⟨hstate, horigin⟩ := hself
  refine ⟨hstate, horigin, ?_⟩
  rw [k.frame]
  exact ⟨rfl, rfl⟩

/-- After the release of groups that are due the route stands as before it, but for those groups. -/
theorem State.Behind.of_released {m t : State} {gs : List Nat} (hm : s.Behind v r m) (hs : s.SameTables v)
    (k : m.GroupsReleased t r gs) (ht : HandedOn v t)
    (hgs : ∀ g ∈ gs, Claims.releaseDue s v r g ∧ (m.route r).groupState g ≠ .released) : s.Behind v r t := by
  obtain ⟨hstate, horigin, hwait, htrans⟩ := k.record
  have hsm : s.SameTables m := hs.trans hm.handed.sameTables
  exact {
    handed := ht
    state := hstate.trans hm.state
    origin := horigin.trans hm.origin
    length := k.length.trans hm.length
    waits := fun w hw => hm.waits w (hwait ▸ hw)
    groups := fun h hh => by
      rw [k.groups h hh]
      split
      · next hg => exact .inr (.inr ⟨rfl, (hgs h hg).1⟩)
      · exact hm.groups h hh
    claims := fun e => (k.claims e).trans (hm.claims e)
    flank := fun h hh hn e => by
      rw [k.groups h hh] at hn
      by_cases hg : h ∈ gs
      · rw [if_pos hg] at hn
        exact absurd rfl hn
      · rw [if_neg hg] at hn
        rw [← hm.flank h hh hn e, k.flank, List.filter_filter]
        refine List.filter_congr fun f _ => ?_
        by_cases hf : f.group = .group h
        · have hall : gs.all (fun g => f.group != .group g) = true := List.all_eq_true.2 fun g hgg => by
            rw [hf, bne_iff_ne]
            intro he
            injection he with he
            exact hg (he ▸ hgg)
          rw [hall, Bool.and_true]
        · have hne : (f.group == .group h) = false := beq_eq_false_iff_ne.2 hf
          rw [hne, Bool.and_false, Bool.false_and]
    overlap := fun f hf ho => by
      rw [k.flank]
      refine List.mem_filter.2 ⟨hm.overlap f hf ho, List.all_eq_true.2 fun g _ => ?_⟩
      rw [ho]
      rfl
    gone := fun h hh hl hd hr => by
      rw [k.groups h hh] at hr
      by_cases hg : h ∈ gs
      · exact k.gone hsm hg hm.claims (hm.flank h hh (hgs h hg).2)
      · rw [if_neg hg] at hr
        exact k.gone_kept (hm.gone h hh hl hd hr)
    border := fun h => by
      obtain ⟨h1, h2⟩ := hm.border h
      refine ⟨by rw [htrans]; exact h1, fun q hq hn => h2 q hq ?_⟩
      rw [← k.others q hq]
      exact hn }

/-- All groups of a route are RELEASED where its record says so of each. -/
theorem RouteRec.all_released_iff (w : RouteRec) : w.groups.all (· == .released) = true ↔
    ∀ h, 1 ≤ h → h ≤ w.groups.length → w.groupState h = .released := by
  rw [List.all_eq_true]
  unfold RouteRec.groupState
  refine ⟨fun hall h hh hl => ?_, fun hall x hx => ?_⟩
  · rw [List.getD_eq_getElem _ _ (by omega)]
    exact beq_iff_eq.1 (hall _ (List.getElem_mem _))
  · obtain ⟨i, hi, rfl⟩ := List.getElem_of_mem hx
    have h := hall (i + 1) (by omega) (by omega)
    rw [Nat.add_sub_cancel, List.getD_eq_getElem _ _ hi] at h
    exact beq_iff_eq.2 h

/-- Once every group that is due has been released, all groups are RELEASED where they were before the event or are due. -/
theorem State.Behind.all_released_iff {t : State} (ht : s.Behind v r t)
    (hdue : ∀ h, 1 ≤ h → h ≤ (s.rrow r).groups → Claims.releaseDue s v r h → (t.route r).groupState h = .released) :
    (t.route r).groups.all (· == .released) = true ↔ s.allGone v r := by
  rw [RouteRec.all_released_iff, ht.length]
  refine ⟨fun hall h hh hl => ?_, fun hall h hh hl => ?_⟩
  · rcases ht.groups h hh with h1 | ⟨-, h1, -⟩ | ⟨-, h1⟩
    · exact .inl (h1 ▸ hall h hh hl)
    · rw [hall h hh hl] at h1
      cases h1
    · exact .inr h1
  · rcases hall h hh hl with h1 | h1
    · rcases ht.groups h hh with h2 | ⟨h2, -⟩ | ⟨h2, -⟩
      · exact h2.trans h1
      · rw [h1] at h2
        cases h2
      · exact h2
    · exact hdue h hh hl h1

end

end Sys2Proof.Machine

/-! PROOF SUPPORT. The ends of a route in IN_USE: full release, or the hold of its overlap (R132 to R134, R150). -/

namespace Sys2Proof.Machine

/-- A route has been released in full after its last group; the transaction of an EXIT route in HELD_OUT, over a BORDER
element that no other speaks for, has ended by Handback (R132, R133, R150). -/
structure Ev.Freed (s v : State) (r : Nat) (b : Ev) : Prop where
  route : b.s.route r = {}
  waits : b.s.NotWaiting r
  unlocked : ∀ e, (b.s.elem e).lockOwner ≠ some r
  raised : b.raised .route (s.groupReport r .released false false)
  border : s.Alone r → ∀ l ref, s.routeKind r = some .exit → s.elemLink (s.rrow r).dest = some l →
    (s.transOf (s.rrow r).dest).state = .heldOut → (s.transOf (s.rrow r).dest).reference = some ref →
    b.s.transOf (s.rrow r).dest = {} ∧
      ⟨l.port, .transaction (plainTx .handback (s.pointByte (s.rrow r).dest) ref 0)⟩ ∈ b.s.sent.drop v.sent.length

/-- A route holds its overlap after its last group (R132). -/
structure State.Holding (s : State) (r : Nat) (t : State) : Prop where
  state : (t.route r).state = .overlapHeld
  waits : t.OverlapWaits r
  groups : ∀ h, 1 ≤ h → h ≤ (s.rrow r).groups → (t.route r).groupState h = .released
  overlap : ∀ f ∈ (s.route r).flank, f.group = .overlap → f ∈ (t.route r).flank

/-- A route has lost its last group at the event. -/
structure Ev.Over (s v : State) (r : Nat) (b : Ev) : Prop where
  before : b.before = s
  handed : HandedOn v b.s
  last : s.allGone v r
  gone : ∀ h, 1 ≤ h → h ≤ (s.rrow r).groups → Claims.releaseDue s v r h → s.Gone r h b.s
  raised : ∀ h, 1 ≤ h → h ≤ (s.rrow r).groups → Claims.releaseDue s v r h →
    ∃ d k, b.raised .route (s.groupReport r (.groupReleased h) d k)
  freed : (s.rrow r).ovTime = 0 → b.Freed s v r
  held : (s.rrow r).ovTime ≠ 0 → s.Holding r b.s

section

variable {s v : State} {r : Nat}

theorem State.groupReport_of_origin {t : State} (hs : s.SameTables t) {w : RouteRec} (h : w.origin = (s.route r).origin)
    (x : RouteEvent) : (t.routeOffer r w x).rep = s.groupReport r x w.deferred w.clamped := by
  unfold State.routeOffer State.groupReport
  dsimp only
  rw [hs.routeKeyOf, h]

/-- An entered group stands among the groups of a route whose groups are all RELEASED. -/
theorem RouteRec.entered_of_all_released {w : RouteRec} (h : w.groups.all (· == .released) = true)
    (hl : 1 ≤ w.groups.length) : w.groups.any GroupState.entered = true := by
  rw [List.all_eq_true] at h
  have hmem : w.groups[0] ∈ w.groups := List.getElem_mem (by omega)
  refine List.any_eq_true.2 ⟨w.groups[0], hmem, ?_⟩
  rw [beq_iff_eq.1 (h _ hmem)]
  rfl

/-- The border side of the release of a route that its train has left (R134, R150). -/
theorem State.Behind.handback {t : State} (ht : s.Behind v r t) (hs : s.SameTables t)
    (hall : (t.route r).groups.all (· == .released) = true) (hg : 1 ≤ (s.rrow r).groups) {b : Ev}
    (hb : Claims.borderSideEnds t r t.sent b) (halone : s.Alone r) (l : Link) (ref : Byte)
    (hk : s.routeKind r = some .exit) (hl : s.elemLink (s.rrow r).dest = some l)
    (hheld : (s.transOf (s.rrow r).dest).state = .heldOut)
    (href : (s.transOf (s.rrow r).dest).reference = some ref) : b.s.transOf (s.rrow r).dest = {} ∧
      ⟨l.port, .transaction (plainTx .handback (s.pointByte (s.rrow r).dest) ref 0)⟩ ∈ b.s.sent.drop v.sent.length := by
  obtain ⟨htrans, -⟩ := ht.border halone
  obtain ⟨hlink, hpoint⟩ := hs.elemLink
  obtain ⟨hends, -⟩ := hb
  rw [hs.rrow, hs.routeKind, hlink, hpoint, htrans,
    RouteRec.entered_of_all_released hall (by rw [ht.length]; exact hg)] at hends
  obtain ⟨hidle, -, hsent, -⟩ := hends l ref hk hl hheld href
  refine ⟨hidle, ?_⟩
  obtain ⟨more, hmore⟩ := ht.handed.sent
  rw [hsent, ← hmore, if_pos rfl, List.append_assoc, List.drop_left]
  exact List.mem_append_right _ (List.mem_singleton_self _)

/-- Without an overlap release time the route is released in full after its last group (R132). -/
theorem State.Behind.freed {d : Ev} (ht : s.Behind v r d.s) (hs : s.SameTables d.s)
    (hall : (d.s.route r).groups.all (· == .released) = true) (hg : 1 ≤ (s.rrow r).groups) :
    (d.endOverlap r).Freed s v r ∧ HandedOn d.s (d.endOverlap r).s ∧ State.Aside r d.s (d.endOverlap r).s ∧
      d.offers <+: (d.endOverlap r).offers := by
  have heased := d.s.releaseOverlap_eased r
  have haside := d.s.releaseOverlap_aside r
  have hhanded := d.s.releaseOverlap_handedOn r
  have released := (d.on (fun s => s.releaseOverlap r)).fullRelease_released r
  have haside' := (d.on (fun s => s.releaseOverlap r)).fullRelease_aside r
  have hwaits : (d.s.releaseOverlap r).NotWaiting r → _ := Ev.fullRelease_notWaiting (ev := d.on (fun s => s.releaseOverlap r))
  unfold Ev.endOverlap
  generalize (d.on (fun s => s.releaseOverlap r)).fullRelease r = b at *
  obtain ⟨-, -, hroute, -, hunlocked, -, hborder, -, -, hoffers, hraised, -, hhanded'⟩ := released
  simp only [Ev.on] at hborder hoffers hraised hhanded' haside'
  have hself := heased.route r
  rw [if_pos rfl] at hself
  have hshared : (d.s.releaseOverlap r).trans = d.s.trans ∧ (d.s.releaseOverlap r).sent = d.s.sent ∧
      (d.s.releaseOverlap r).waitList = d.s.waitList := by
    rw [heased.frame]
    exact ⟨rfl, rfl, rfl⟩
  have hrecord : ((d.s.releaseOverlap r).route r).groups = (d.s.route r).groups ∧
      ((d.s.releaseOverlap r).route r).origin = (d.s.route r).origin := by
    rw [hself]
    exact ⟨rfl, rfl⟩
  obtain ⟨htrans, hsent, hlist⟩ := hshared
  obtain ⟨hgroups, horigin⟩ := hrecord
  generalize d.s.releaseOverlap r = u at *
  have hds := hhanded.sameTables
  obtain ⟨hlink, hpoint⟩ := hds.elemLink
  have hdesig : u.desig = d.s.desig := by
    unfold State.desig State.erow
    rw [hds.1]
  rw [State.groupReport_of_origin (hs.trans hds) (w := { u.route r with deferred := false, clamped := false })
    (horigin.trans ht.origin)] at hraised
  have hends := borderSideEnds_congr (hsent ▸ hborder) ⟨hds.rrow, hdesig, hpoint, hds.routeKind, hlink⟩ hgroups htrans
  exact ⟨⟨hroute, hwaits fun w hw => ht.waits w (hlist ▸ hw), hunlocked, hraised, fun halone => ht.handback hs hall hg hends halone⟩, hhanded.trans hhanded',
    haside.trans' haside', hoffers⟩

/-- With an overlap release time the route waits in OVERLAP_HELD after its last group (R132). -/
theorem State.Behind.held {d : Ev} (ht : s.Behind v r d.s) (hs : s.SameTables d.s)
    (hall : (d.s.route r).groups.all (· == .released) = true) (ho : (s.rrow r).ovTime ≠ 0) (g : Nat) :
    let b := (d.on (fun s => s.modRoute r (fun w => { w with state := .overlapHeld }))).timedWait r .overlap (.groupReleased g)
    s.Holding r b.s ∧ (b.s.route r).flank = (d.s.route r).flank ∧ HandedOn d.s b.s ∧ State.Aside r d.s b.s ∧
      d.offers <+: b.offers ∧ ∃ x y, b.raised .route (s.groupReport r (.groupReleased g) x y) := by
  have hroute : (d.s.modRoute r (fun w => { w with state := .overlapHeld })).route r =
      { d.s.route r with state := .overlapHeld } := (State.route_modRoute d.s r r _).trans (if_pos rfl)
  have hhanded := d.s.modRoute_handedOn r (fun w => { w with state := .overlapHeld })
  have haside := d.s.modRoute_aside r (fun w => { w with state := .overlapHeld })
  have hwaits : (d.s.modRoute r (fun w => { w with state := .overlapHeld })).NotWaiting r := ht.waits
  intro b
  have hb : b = (d.on (fun s => s.modRoute r (fun w => { w with state := .overlapHeld }))).timedWait r .overlap
    (.groupReleased g) := rfl
  clear_value b
  simp only [Ev.on] at hb
  generalize d.s.modRoute r (fun w => { w with state := .overlapHeld }) = u at *
  have hsu := hs.trans hhanded.sameTables
  have hpos : u.requiredMs r .overlap ≠ 0 := by
    unfold State.requiredMs
    dsimp only
    rw [hsu.rrow]
    omega
  rw [Ev.timedWait_of_pos (ev := { d with s := u }) _ hpos] at hb
  have hlist := State.timerRequest_overlap hwaits hpos
  have htimed := u.timerRequest_timed r .overlap
  have hhanded' := u.timerRequest_handedOn r .overlap
  have haside' := u.timerRequest_aside r .overlap
  simp only [Ev.on] at hb
  generalize (u.timerRequest r .overlap).1 = t at *
  obtain ⟨hstate, horigin, -, -, -, hgroups, hflank, -⟩ := RouteRec.sameButTimer_fields (htimed.route r)
  rw [hroute] at hstate horigin hgroups hflank
  dsimp only at hstate horigin hgroups hflank
  have hst := hsu.trans hhanded'.sameTables
  subst hb
  refine ⟨⟨hstate, hlist, fun h hh hl => ?_, fun f hf ho => ?_⟩, hflank, hhanded.trans hhanded', haside.trans' haside',
    List.prefix_append _ _, (t.route r).deferred, (t.route r).clamped, ?_⟩
  · have h1 := (RouteRec.all_released_iff (d.s.route r)).1 hall h hh (by rw [ht.length]; exact hl)
    have h2 : (t.route r).groupState h = (d.s.route r).groupState h := by
      unfold RouteRec.groupState
      rw [hgroups]
    exact h2.trans h1
  · exact hflank ▸ ht.overlap f hf ho
  · rw [← State.groupReport_of_origin hst (horigin.trans ht.origin)]
    exact Ev.raised_raise _ .route _ rfl

end

end Sys2Proof.Machine

/-! PROOF SUPPORT. The evaluation of a route in IN_USE, put together (R127 to R134). -/

namespace Sys2Proof.Machine

section

variable {s v : State} {r : Nat}

theorem Ev.Freed.mono {b c : Ev} (h : b.Freed s v r) (hs : c.s = b.s)
    (hraised : ∀ src x, b.raised src x → c.raised src x) : c.Freed s v r where
  route := hs ▸ h.route
  waits := hs ▸ h.waits
  unlocked := hs ▸ h.unlocked
  raised := hraised _ _ h.raised
  border := hs ▸ h.border

theorem State.Behind.groupReport {t : State} (ht : s.Behind v r t) (hs : s.SameTables t) (x : RouteEvent) (d k : Bool) :
    t.groupReport r x d k = s.groupReport r x d k := by
  unfold State.groupReport
  rw [hs.routeKeyOf, ht.origin]

/-- What the end of a route's evaluation leaves of a state whose groups have been released: the route stays IN_USE, or it
is released, or it holds its overlap. -/
def Ev.Ends (s v : State) (r : Nat) (t : State) (b : Ev) : Prop :=
  b.s = t ∧ (t.route r).groups.all (· == .released) = false ∨
    (t.route r).groups.all (· == .released) = true ∧ ((s.rrow r).ovTime = 0 → b.Freed s v r) ∧
      ((s.rrow r).ovTime ≠ 0 → s.Holding r b.s) ∧ HandedOn t b.s ∧ State.Aside r t b.s ∧
      ∀ f ∈ (b.s.route r).flank, f ∈ (t.route r).flank

theorem State.Behind.afterGroups {d : Ev} (ht : s.Behind v r d.s) (hs : s.SameTables d.s) (hg : 1 ≤ (s.rrow r).groups)
    (g : Nat) : Ev.Ends s v r d.s (d.afterGroups r g) ∧ d.offers <+: (d.afterGroups r g).offers ∧
      ∃ x y, (d.afterGroups r g).raised .route (s.groupReport r (.groupReleased g) x y) := by
  have hreport (b : Ev) (hb : b.s = d.s) : (b.routeEvent r (.groupReleased g)).raised .route
      (s.groupReport r (.groupReleased g) (d.s.route r).deferred (d.s.route r).clamped) := by
    have h := b.raised_routeEvent r (.groupReleased g)
    rw [hb, ht.groupReport hs] at h
    exact h
  unfold Ev.afterGroups
  split
  · next hall =>
    split
    · next ho =>
      rw [hs.rrow] at ho
      have hp := d.raised_part (.release r) 0 (fun ev => ev.routeEvent r (.groupReleased g))
        (hreport { d with offers := [] } rfl)
      have hoffers := d.offers_kept_part (.release r) 0 (fun ev => ev.routeEvent r (.groupReleased g))
      have hd : (d.part (.release r) 0 (fun ev => ev.routeEvent r (.groupReleased g))).s = d.s := rfl
      generalize d.part (.release r) 0 (fun ev => ev.routeEvent r (.groupReleased g)) = p at hp hoffers hd
      rw [← hd] at ht hs hall
      obtain ⟨hfreed, hhanded, haside, hmore⟩ := ht.freed hs hall hg
      rw [hd] at hhanded haside hall
      refine ⟨.inr ⟨hall, fun _ => hfreed, fun h => absurd ho h, hhanded, haside, fun f hf => ?_⟩, hoffers.trans hmore, _, _,
        Ev.raised_mono hmore hp⟩
      rw [hfreed.route] at hf
      cases hf
    · next ho =>
      rw [hs.rrow] at ho
      obtain ⟨hholding, hflank, hhanded, haside, hoffers, hraised⟩ := ht.held hs hall ho g
      exact ⟨.inr ⟨hall, fun h => absurd h ho, fun _ => hholding, hhanded, haside, fun f hf => hflank ▸ hf⟩, hoffers, hraised⟩
  · next hall => exact ⟨.inl ⟨rfl, Bool.eq_false_iff.2 hall⟩, List.prefix_append _ _, _, _, hreport d rfl⟩

/-- The groups of a route that are due at the event have been released. -/
def State.DueReleased (s v : State) (r : Nat) (t : State) : Prop :=
  ∀ h, 1 ≤ h → h ≤ (s.rrow r).groups → Claims.releaseDue s v r h → (t.route r).groupState h = .released

theorem State.Marked.released_iff {a b : State} {first : Option Nat} {xs : List ListRow} (h : State.Marked a b r first xs)
    {g : Nat} (hg : 1 ≤ g) : (b.route r).groupState g = .released ↔ (a.route r).groupState g = .released := by
  by_cases hr : (a.route r).groupState g = .reserved
  · rcases h.marked g hg hr with h1 | ⟨h1, -⟩
    · rw [h1, hr]
    · rw [h1, hr]
      decide
  · rw [h.kept g hg hr]

theorem Ev.Behind.evalRoute_of_none {b a c : Ev} (hb : b.Behind s v r) (hs : s.SameTables v)
    (hm : State.Marked b.s a.s r (b.s.firstSection r) (b.hits r)) (ha : HandedOn v a.s) (hasd : State.Aside r b.s a.s)
    (hc : c.before = s) (hcs : c.s = a.s) (hoffers : b.offers <+: c.offers) : c.Behind s v r where
  before := hc
  stands := hcs ▸ hb.stands.of_marked hb.before hs hm ha hasd
  raised h hh hl hd hr := by
    rw [hcs, hm.released_iff hh] at hr
    exact (hb.raised h hh hl hd hr).imp fun _ hx => hx.imp fun _ hy => Ev.raised_mono hoffers hy
  more h hh hl hd hr := by
    rw [hcs, hm.released_iff hh] at hr
    exact hb.more h hh hl hd hr

/-- The groups that are ready are released and reported. -/
theorem State.Behind.stepRelease {a : Ev} {gs : List Nat} {last : Nat} (ha : s.Behind v r a.s) (hs : s.SameTables v)
    (hG : 1 ≤ (s.rrow r).groups) (hgs : a.readyGroups r = gs ++ [last])
    (hdue : ∀ g ∈ a.readyGroups r, (1 ≤ g ∧ g ≤ (s.rrow r).groups) ∧ Claims.releaseDue s v r g ∧
      (a.s.route r).groupState g ≠ .released) :
    ∃ t, s.Behind v r t ∧ Ev.Ends s v r t (a.stepRelease r) ∧ a.offers <+: (a.stepRelease r).offers ∧
      (∀ h, 1 ≤ h → ((t.route r).groupState h = .released ↔
        h ∈ a.readyGroups r ∨ (a.s.route r).groupState h = .released)) ∧
      ∀ h ∈ a.readyGroups r, ∃ x y, (a.stepRelease r).raised .route (s.groupReport r (.groupReleased h) x y) := by
  have hlive : (a.s.route r).groupsLive = true := by
    unfold RouteRec.groupsLive
    rw [ha.state]
  have hstep := Ev.stepRelease_of_some hlive hgs
  rw [hgs] at hdue ⊢
  have k := State.foldl_releaseGroup r (gs ++ [last]) a.s fun g hg => by
    rw [ha.length]
    exact (hdue g hg).1
  have hhanded : HandedOn a.s ((gs ++ [last]).foldl (fun s g => s.releaseGroup r g) a.s) :=
    HandedOn.foldl id _ (fun m g => m.releaseGroup_handedOn r g) (gs ++ [last]) a.s
  have hd := Ev.foldl_groupReleased_s gs (a.on (fun s => (gs ++ [last]).foldl (fun s g => s.releaseGroup r g) s)) r
  have hraised := Ev.foldl_groupReleased_raised gs (a.on (fun s => (gs ++ [last]).foldl (fun s g => s.releaseGroup r g) s)) r
  have hoffers := Ev.foldl_groupReleased_offers gs (a.on (fun s => (gs ++ [last]).foldl (fun s g => s.releaseGroup r g) s)) r
  simp only [Ev.on] at hd hraised hoffers hstep
  generalize (gs ++ [last]).foldl (fun s g => s.releaseGroup r g) a.s = t at *
  generalize gs.foldl (fun ev g => ev.routeEvent r (.groupReleased g)) { a with s := t } = d at *
  have ht := ha.of_released hs k (ha.handed.trans hhanded) fun g hg => (hdue g hg).2
  have hst := hs.trans ht.handed.sameTables
  subst hd
  obtain ⟨hends, hmore, hlast⟩ := ht.afterGroups hst hG last
  rw [hstep]
  refine ⟨d.s, ht, hends, hoffers.trans hmore, fun h hh => ?_, fun h hm => ?_⟩
  · rw [k.groups h hh]
    split
    · next hg => exact ⟨fun _ => .inl hg, fun _ => rfl⟩
    · next hg => exact (or_iff_right hg).symm
  · rcases List.mem_append.1 hm with hm | hm
    · have hr := hraised h hm
      rw [ht.groupReport hst] at hr
      exact ⟨_, _, Ev.raised_mono hmore hr⟩
    · rw [List.mem_singleton.1 hm]
      exact hlast

/-- A route whose last group goes at the evaluation. -/
theorem Ev.Ends.over {t : State} {b c : Ev} (ht : s.Behind v r t) (hall : (t.route r).groups.all (· == .released) = true)
    (hdue : s.DueReleased v r t) (hfreed : (s.rrow r).ovTime = 0 → b.Freed s v r)
    (hheld : (s.rrow r).ovTime ≠ 0 → s.Holding r b.s) (hhanded : HandedOn t b.s) (haside : State.Aside r t b.s)
    (hflank : ∀ f ∈ (b.s.route r).flank, f ∈ (t.route r).flank) (hc : c.before = s) (hcs : c.s = b.s)
    (hraised : ∀ src x, b.raised src x → c.raised src x)
    (hgroups : ∀ h, 1 ≤ h → h ≤ (s.rrow r).groups → Claims.releaseDue s v r h →
      ∃ d k, c.raised .route (s.groupReport r (.groupReleased h) d k)) : c.Over s v r where
  before := hc
  handed := hcs ▸ ht.handed.trans hhanded
  last := (ht.all_released_iff hdue).1 hall
  gone h hh hl hd := hcs ▸ (ht.gone h hh hl hd (hdue h hh hl hd)).mono (fun _ => hhanded.unlocked) haside.claims hflank
  raised := hgroups
  freed ho := (hfreed ho).mono hcs hraised
  held ho := hcs ▸ hheld ho

/-- The evaluation of a route in IN_USE releases the groups that are due; with the last one the route is released in full or
holds its overlap (R127 to R134). -/
theorem Ev.Behind.evalRoute {b : Ev} (hb : b.Behind s v r) (hs : s.SameTables v) (hin : (s.route r).state = .inUse)
    (hG : 1 ≤ (s.rrow r).groups) : (b.evalRoute r).Behind s v r ∧ s.DueReleased v r (b.evalRoute r).s ∨
      (b.evalRoute r).Over s v r := by
  have hmonitor : (b.before.route r).state.inMonitor = true := by
    rw [hb.before, hin]
    rfl
  obtain ⟨a, hbefore, hha, hm, hasd, hend⟩ := Ev.evalRoute_of_inUse hmonitor hb.stands.state
  have hcbefore := (b.evalRoute_before r).trans hb.before
  have hoffers := b.evalRoute_offers r
  rw [hb.before] at hbefore
  have ha := hb.stands.handed.trans hha
  have hsa := hs.trans ha.sameTables
  have hstands := hb.stands.of_marked hb.before hs hm ha hasd
  have hready (h : Nat) (hh : 1 ≤ h) (hl : h ≤ (s.rrow r).groups) (hd : Claims.releaseDue s v r h) :
      h ∈ a.readyGroups r ∨ (a.s.route r).groupState h = .released := by
    by_cases hr : (b.s.route r).groupState h = .released
    · exact .inr ((hm.released_iff hh).2 hr)
    · obtain ⟨h1, h2⟩ := hb.stands.ready_of_due hb.before hs.rrow hs.pathSections hs.firstSection hm ha hh hd hr
      exact .inl (Ev.mem_readyGroups.2 ⟨⟨hh, by rw [hsa.rrow]; exact hl⟩, h1, by rw [hbefore]; exact h2⟩)
  have hdue (g : Nat) (hg : g ∈ a.readyGroups r) : (1 ≤ g ∧ g ≤ (s.rrow r).groups) ∧ Claims.releaseDue s v r g ∧
      (a.s.route r).groupState g ≠ .released := by
    obtain ⟨hbound, h1, h2⟩ := Ev.mem_readyGroups.1 hg
    rw [hsa.rrow] at hbound
    rw [hbefore] at h2
    refine ⟨hbound, hb.stands.due_of_ready hb.before hs.rrow hs.pathSections hs.firstSection hm ha hbound.1 h1 h2,
      fun hr => ?_⟩
    unfold State.releaseReady at h1
    rw [hr] at h1
    cases h1
  rcases List.eq_nil_or_concat (a.readyGroups r) with hnil | ⟨gs, last, hgs⟩
  · have hstep : a.stepRelease r = a := Ev.stepRelease_of_none hnil
    rw [hstep] at hend
    obtain ⟨hstate, -⟩ := hend (.inr (.inr hstands.state))
    refine .inl ⟨hb.evalRoute_of_none hs hm ha hasd hcbefore hstate hoffers, fun h hh hl hd => ?_⟩
    rw [hstate]
    rcases hready h hh hl hd with h1 | h1
    · rw [hnil] at h1
      exact absurd h1 List.not_mem_nil
    · exact h1
  · rw [List.concat_eq_append] at hgs
    obtain ⟨t, ht, hends, -, hiff, hraised⟩ := hstands.stepRelease hs hG hgs hdue
    have hreleased : s.DueReleased v r t := fun h hh hl hd => (hiff h hh).2 (hready h hh hl hd)
    have hgroups (hkeep : ∀ src x, (a.stepRelease r).raised src x → (b.evalRoute r).raised src x) (h : Nat) (hh : 1 ≤ h)
        (hl : h ≤ (s.rrow r).groups) (hd : Claims.releaseDue s v r h) :
        ∃ x y, (b.evalRoute r).raised .route (s.groupReport r (.groupReleased h) x y) := by
      rcases hready h hh hl hd with h1 | h1
      · exact (hraised h h1).imp fun _ hx => hx.imp fun _ hy => hkeep _ _ hy
      · exact (hb.raised h hh hl hd ((hm.released_iff hh).1 h1)).imp fun _ hx => hx.imp fun _ hy =>
          Ev.raised_mono hoffers hy
    rcases hends with ⟨hsame, hnot⟩ | ⟨hall, hfreed, hheld, hhanded, haside, hflank⟩
    · obtain ⟨hstate, hkeep⟩ := hend (.inr (.inr (hsame ▸ ht.state)))
      have hct := hstate.trans hsame
      have hlast : ¬ s.allGone v r := fun hl => by
        rw [(ht.all_released_iff hreleased).2 hl] at hnot
        cases hnot
      exact .inl ⟨⟨hcbefore, hct ▸ ht, fun h hh hl hd _ => hgroups hkeep h hh hl hd, fun _ _ _ _ _ => hlast⟩,
        hct ▸ hreleased⟩
    · have hidle : ((a.stepRelease r).s.route r).state = .free ∨ ((a.stepRelease r).s.route r).state = .overlapHeld := by
        by_cases ho : (s.rrow r).ovTime = 0
        · exact .inl (congrArg RouteRec.state (hfreed ho).route)
        · exact .inr (hheld ho).state
      obtain ⟨hstate, hkeep⟩ := hend (hidle.imp_right .inl)
      exact .inr (Ev.Ends.over ht hall hreleased hfreed hheld hhanded haside hflank hcbefore hstate hkeep (hgroups hkeep))

end

end Sys2Proof.Machine

/-! PROOF SUPPORT. A route in IN_USE, or one whose last group has gone, through the evaluation of other routes (R113). -/

namespace Sys2Proof.Machine

section

variable {s v : State} {r q : Nat}

/-- The Route Reports on a route, but for a CLEARED whose aspect is still to be filled in, are kept. -/
def State.Keeps (s : State) (r : Nat) (b c : Ev) : Prop := ∀ x d k, x ≠ .cleared .danger →
  b.raised .route (s.groupReport r x d k) → c.raised .route (s.groupReport r x d k)

theorem Ev.keeps_evalRoute (b : Ev) (q : Nat) : s.Keeps r b (b.evalRoute q) :=
  fun _ _ _ _ => Ev.raised_mono (b.evalRoute_offers q)

theorem RouteRec.sameButTimer.groupState {w x : RouteRec} (h : w.sameButTimer x) (g : Nat) :
    w.groupState g = x.groupState g := by
  obtain ⟨-, -, -, -, -, hgroups, -⟩ := RouteRec.sameButTimer_fields h
  unfold RouteRec.groupState
  rw [hgroups]

/-- What leaves a route's record, but for its timer fields, leaves where a route in IN_USE stands. -/
theorem State.Behind.beside {t u : State} (ht : s.Behind v r t) (hhanded : HandedOn t u)
    (hself : (u.route r).sameButTimer (t.route r)) (hwaits : u.NotWaiting r)
    (hclaims : ∀ e, (u.elem e).claims ≤ (t.elem e).claims)
    (hborder : s.Alone r → s.Unspoken r t → s.Unspoken r u) : s.Behind v r u := by
  have hgroup := hself.groupState
  obtain ⟨hstate, horigin, -, -, -, hgroups, hflank, -⟩ := RouteRec.sameButTimer_fields hself
  exact {
    handed := ht.handed.trans hhanded
    state := hstate.trans ht.state
    origin := horigin.trans ht.origin
    length := (congrArg List.length hgroups).trans ht.length
    waits := hwaits
    groups := fun h hh => by rw [hgroup]; exact ht.groups h hh
    claims := fun e => (hclaims e).trans (ht.claims e)
    flank := fun h hh hr => by rw [hflank]; exact ht.flank h hh (hgroup h ▸ hr)
    overlap := fun f hf ho => by rw [hflank]; exact ht.overlap f hf ho
    gone := fun h hh hl hd hr => (ht.gone h hh hl hd (hgroup h ▸ hr)).mono (fun _ => hhanded.unlocked) hclaims
      (fun f hf => hflank ▸ hf)
    border := fun h => hborder h (ht.border h) }

/-- The evaluation of another route leaves where a route in IN_USE stands. -/
theorem State.Behind.aside {t u : State} (ht : s.Behind v r t) (hs : s.SameTables t) (hq : r ≠ q)
    (hhanded : HandedOn t u) (k : State.Aside q t u) (hn : (t.route q).state ≠ .free) : s.Behind v r u := by
  obtain ⟨hwaits, -⟩ := k.waiting r hq ht.waits
  refine ht.beside hhanded (k.others r hq) hwaits k.claims fun _ ⟨h1, h2⟩ => ?_
  have hdest : (t.rrow q).dest ≠ (s.rrow r).dest := by rw [hs.rrow]; exact h2 q hq.symm hn
  refine ⟨(k.trans _ hdest.symm).trans h1, fun j hj hnj => ?_⟩
  by_cases hjq : j = q
  · exact hjq ▸ h2 q hq.symm hn
  · refine h2 j hj ?_
    rw [← (RouteRec.sameButTimer_fields (k.others j hjq)).1]
    exact hnj

theorem Ev.Behind.aside {b c : Ev} (hb : b.Behind s v r) (hs : s.SameTables v) (hq : r ≠ q) (hc : c.before = b.before)
    (hhanded : HandedOn b.s c.s) (k : State.Aside q b.s c.s) (hkeep : s.Keeps r b c)
    (hn : (b.s.route q).state ≠ .free) : c.Behind s v r := by
  have hgroup := (k.others r hq).groupState
  refine ⟨hc.trans hb.before, hb.stands.aside (hs.trans hb.stands.handed.sameTables) hq hhanded k hn,
    fun h hh hl hd hr => ?_, fun h hh hl hd hr => hb.more h hh hl hd (hgroup h ▸ hr)⟩
  obtain ⟨x, y, hxy⟩ := hb.raised h hh hl hd (hgroup h ▸ hr)
  exact ⟨x, y, hkeep _ x y nofun hxy⟩

theorem Ev.Over.aside {b c : Ev} (hb : b.Over s v r) (hq : r ≠ q) (hc : c.before = b.before)
    (hhanded : HandedOn b.s c.s) (k : State.Aside q b.s c.s) (hkeep : s.Keeps r b c) : c.Over s v r := by
  have hself := k.others r hq
  obtain ⟨hstate, -, -, -, -, -, hflank, -⟩ := RouteRec.sameButTimer_fields hself
  refine ⟨hc.trans hb.before, hb.handed.trans hhanded, hb.last, fun h hh hl hd => ?_, fun h hh hl hd => ?_, fun ho => ?_,
    fun ho => ?_⟩
  · exact (hb.gone h hh hl hd).mono (fun _ => hhanded.unlocked) k.claims (fun f hf => hflank ▸ hf)
  · obtain ⟨x, y, hxy⟩ := hb.raised h hh hl hd
    exact ⟨x, y, hkeep _ x y nofun hxy⟩
  · have hf := hb.freed ho
    obtain ⟨hwaits, hroute⟩ := k.waiting r hq hf.waits
    refine ⟨hroute.trans hf.route, hwaits, fun e he => hf.unlocked e (hhanded.lock e r he),
      hkeep _ _ _ (by decide) hf.raised, fun ha l ref hk hl hh hr => ?_⟩
    obtain ⟨h1, h2⟩ := hf.border ha l ref hk hl hh hr
    exact ⟨k.cleared _ h1, (hhanded.sent.drop v.sent.length).subset h2⟩
  · have hh := hb.held ho
    exact ⟨hstate.trans hh.state, k.overlap r hq hh.waits, fun h h1 h2 => (hself.groupState h).trans (hh.groups h h1 h2),
      fun f hf hfo => hflank ▸ hh.overlap f hf hfo⟩

/-- A route that the event record has not changed. -/
theorem Ev.Behind.same {b c : Ev} (hb : b.Behind s v r) (hc : c.before = b.before) (hs : c.s = b.s)
    (hkeep : s.Keeps r b c) : c.Behind s v r := by
  refine ⟨hc.trans hb.before, hs ▸ hb.stands, fun h hh hl hd hr => ?_, fun h hh hl hd hr => hb.more h hh hl hd (hs ▸ hr)⟩
  obtain ⟨x, y, hxy⟩ := hb.raised h hh hl hd (hs ▸ hr)
  exact ⟨x, y, hkeep _ x y nofun hxy⟩

theorem Ev.Over.same {b c : Ev} (hb : b.Over s v r) (hc : c.before = b.before) (hs : c.s = b.s)
    (hkeep : s.Keeps r b c) : c.Over s v r where
  before := hc.trans hb.before
  handed := hs ▸ hb.handed
  last := hb.last
  gone := hs ▸ hb.gone
  raised h hh hl hd := by
    obtain ⟨x, y, hxy⟩ := hb.raised h hh hl hd
    exact ⟨x, y, hkeep _ x y nofun hxy⟩
  freed ho := by
    have hf := hb.freed ho
    exact ⟨hs ▸ hf.route, hs ▸ hf.waits, hs ▸ hf.unlocked, hkeep _ _ _ (by decide) hf.raised, hs ▸ hf.border⟩
  held := hs ▸ hb.held

/-! ### The settled routes -/

/-- A route once it has been evaluated: it stands in IN_USE with all groups that are due released, or its last group has
gone. -/
def Ev.Served (s v : State) (r : Nat) (b : Ev) : Prop := b.Behind s v r ∧ s.DueReleased v r b.s ∨ b.Over s v r

theorem Ev.Over.idle {b : Ev} (hb : b.Over s v r) : (b.s.route r).state = .free ∨ (b.s.route r).state = .overlapHeld := by
  by_cases ho : (s.rrow r).ovTime = 0
  · exact .inl (congrArg RouteRec.state (hb.freed ho).route)
  · exact .inr (hb.held ho).state

theorem Ev.Behind.evalOther {b : Ev} (hb : b.Behind s v r) (hs : s.SameTables v) (hq : r ≠ q) :
    (b.evalRoute q).Behind s v r := by
  by_cases hn : (b.s.route q).state = .free
  · exact hb.same (b.evalRoute_before q) (Ev.evalRoute_of_idle (.inl hn)) (b.keeps_evalRoute q)
  · exact hb.aside hs hq (b.evalRoute_before q) (b.evalRoute_handedOn q) (b.evalRoute_aside q) (b.keeps_evalRoute q) hn

theorem Ev.Served.evalRoute {b : Ev} (hb : b.Served s v r) (hs : s.SameTables v) (hin : (s.route r).state = .inUse)
    (hG : 1 ≤ (s.rrow r).groups) (q : Nat) : (b.evalRoute q).Served s v r := by
  rcases hb with ⟨hb, hd⟩ | hb
  · by_cases hq : r = q
    · exact hq ▸ hb.evalRoute hs hin hG
    · refine .inl ⟨hb.evalOther hs hq, fun h hh hl hdue => ?_⟩
      rw [((b.evalRoute_aside q).others r hq).groupState]
      exact hd h hh hl hdue
  · by_cases hq : r = q
    · exact .inr (hb.same (b.evalRoute_before q) (Ev.evalRoute_of_idle (hq ▸ hb.idle)) (b.keeps_evalRoute q))
    · exact .inr (hb.aside hq (b.evalRoute_before q) (b.evalRoute_handedOn q) (b.evalRoute_aside q) (b.keeps_evalRoute q))

theorem Ev.Served.foldl {b : Ev} (hb : b.Served s v r) (hs : s.SameTables v) (hin : (s.route r).state = .inUse)
    (hG : 1 ≤ (s.rrow r).groups) (l : List Nat) : (l.foldl Ev.evalRoute b).Served s v r := by
  induction l generalizing b with
  | nil => exact hb
  | cons q l ih => exact ih (hb.evalRoute hs hin hG q)

/-- A route that the fold of evaluations names is settled by it, and one that it does not name is left where it stands. -/
theorem Ev.Behind.foldl {b : Ev} (hb : b.Behind s v r) (hs : s.SameTables v) (hin : (s.route r).state = .inUse)
    (hG : 1 ≤ (s.rrow r).groups) (l : List Nat) : (r ∈ l → (l.foldl Ev.evalRoute b).Served s v r) ∧
      (r ∉ l → (l.foldl Ev.evalRoute b).Behind s v r) := by
  induction l generalizing b with
  | nil => exact ⟨fun h => absurd h List.not_mem_nil, fun _ => hb⟩
  | cons q l ih =>
    by_cases hq : r = q
    · subst hq
      exact ⟨fun _ => Ev.Served.foldl (hb.evalRoute hs hin hG) hs hin hG l,
        fun h => absurd (List.mem_cons_self ..) h⟩
    · obtain ⟨h1, h2⟩ := ih (hb.evalOther hs hq)
      exact ⟨fun h => h1 ((List.mem_cons.1 h).resolve_left hq), fun h => h2 fun hm => h (List.mem_cons_of_mem _ hm)⟩

end

end Sys2Proof.Machine

/-! PROOF SUPPORT. A route in IN_USE, or one whose last group has gone, through the aspects of an event (R113, R118). -/

namespace Sys2Proof.Machine

section

variable {s v : State} {r : Nat}

theorem Ev.raised_withAspect {b : Ev} {q : Nat} {a : Aspect} {t : State} {x : RouteEvent} {d k : Bool}
    (hx : x ≠ .cleared .danger) (h : b.raised .route (s.groupReport r x d k)) :
    Ev.raised { b with s := t, offers := b.offers.map (Offer.withAspect q a) } .route (s.groupReport r x d k) := by
  obtain ⟨o, ho, hsrc, hrep⟩ := h
  have hsame : Offer.withAspect q a o = o := by
    unfold Offer.withAspect
    rw [hrep]
    unfold State.groupReport
    dsimp only
    rw [if_neg fun h => hx h.2]
  exact ⟨o, List.mem_map.2 ⟨o, ho, hsame⟩, hsrc, hrep⟩

theorem Ev.settleAspect_keeps (b : Ev) (q : Nat) : s.Keeps r b (b.settleAspect q) := by
  intro x d k hx h
  unfold Ev.settleAspect
  dsimp only
  split
  · split
    · exact Ev.raised_withAspect hx h
    · split
      · exact h
      · exact Ev.raised_mono (List.prefix_append _ _) h
  · exact h

theorem Ev.settleAspect_aside (b : Ev) (q : Nat) : State.Aside q b.s (b.settleAspect q).s := by
  unfold Ev.settleAspect
  dsimp only
  split
  · split
    · exact b.s.writeAspect_aside q _
    · split
      · exact .refl q _
      · exact b.s.writeAspect_aside q _
  · exact .refl q _

theorem Ev.settleAspect_of_uncleared {b : Ev} {q : Nat} (h : (b.s.route q).state ≠ .cleared) : b.settleAspect q = b :=
  if_neg fun hc => h hc.1

theorem Ev.Behind.settleAspect {b : Ev} (hb : b.Behind s v r) (hs : s.SameTables v) (q : Nat) :
    (b.settleAspect q).Behind s v r := by
  by_cases hc : (b.s.route q).state = .cleared
  · have hq : r ≠ q := by
      rintro rfl
      rw [hb.stands.state] at hc
      cases hc
    exact hb.aside hs hq (b.settleAspect_before q) (b.settleAspect_handedOn q) (b.settleAspect_aside q)
      (b.settleAspect_keeps q) (by rw [hc]; decide)
  · rw [Ev.settleAspect_of_uncleared hc]
    exact hb

theorem Ev.Over.settleAspect {b : Ev} (hb : b.Over s v r) (q : Nat) : (b.settleAspect q).Over s v r := by
  by_cases hc : (b.s.route q).state = .cleared
  · have hq : r ≠ q := by
      rintro rfl
      rcases hb.idle with h | h <;> rw [hc] at h <;> cases h
    exact hb.aside hq (b.settleAspect_before q) (b.settleAspect_handedOn q) (b.settleAspect_aside q)
      (b.settleAspect_keeps q)
  · rw [Ev.settleAspect_of_uncleared hc]
    exact hb

theorem Ev.Served.settleAspect {b : Ev} (hb : b.Served s v r) (hs : s.SameTables v) (q : Nat) :
    (b.settleAspect q).Served s v r := by
  rcases hb with ⟨hb, hd⟩ | hb
  · refine .inl ⟨hb.settleAspect hs q, fun h hh hl hdue => ?_⟩
    by_cases hc : (b.s.route q).state = .cleared
    · have hq : r ≠ q := by
        rintro rfl
        rw [hb.stands.state] at hc
        cases hc
      rw [((b.settleAspect_aside q).others r hq).groupState]
      exact hd h hh hl hdue
    · rw [Ev.settleAspect_of_uncleared hc]
      exact hd h hh hl hdue
  · exact .inr (hb.settleAspect q)

theorem Ev.Behind.aspects {b : Ev} (hb : b.Behind s v r) (hs : s.SameTables v) (l : List Nat) :
    (l.foldl Ev.settleAspect b).Behind s v r := by
  induction l generalizing b with
  | nil => exact hb
  | cons q l ih => exact ih (hb.settleAspect hs q)

theorem Ev.Served.aspects {b : Ev} (hb : b.Served s v r) (hs : s.SameTables v) (l : List Nat) :
    (l.foldl Ev.settleAspect b).Served s v r := by
  induction l generalizing b with
  | nil => exact hb
  | cons q l ih => exact ih (hb.settleAspect hs q)

/-- The Route Monitor's part of an event: a route that it reaches is settled, and any other is left where it stands
(R113). -/
theorem Ev.Behind.monitor {b : Ev} (hb : b.Behind s v r) (hs : s.SameTables v) (hin : (s.route r).state = .inUse)
    (hG : 1 ≤ (s.rrow r).groups) : (r ∈ b.reachedRoutes → b.monitor.Served s v r) ∧
      (r ∉ b.reachedRoutes → b.monitor.Behind s v r) := by
  obtain ⟨h1, h2⟩ := hb.foldl hs hin hG b.reachedRoutes
  exact ⟨fun h => (h1 h).aspects hs _, fun h => (h2 h).aspects hs _⟩

end

end Sys2Proof.Machine

/-! PROOF SUPPORT. What the Setting Engine's part of an event leaves of a route that no context names (R6, R85 to R90). -/

namespace Sys2Proof.Machine

/-- What stays of everything but route q where the context of route q completes or fails. -/
structure State.Apart (q : Nat) (s t : State) : Prop where
  store : t.store = s.store
  waitList : t.waitList = s.waitList
  others : ∀ k, k ≠ q → t.route k = s.route k
  claims : ∀ e, (t.elem e).claims ≤ (s.elem e).claims
  trans : ∀ e, e ≠ (s.rrow q).start → e ≠ (s.rrow q).dest → t.transOf e = s.transOf e
  ctx : ∀ c x, t.ctx c = some x → ∃ y, s.ctx c = some y ∧ x.route = y.route

theorem State.Apart.refl (q : Nat) (s : State) : State.Apart q s s :=
  ⟨rfl, rfl, fun _ _ => rfl, fun _ => le_refl _, fun _ _ _ => rfl, fun _ x h => ⟨x, h, rfl⟩⟩

theorem State.Apart.trans' {q : Nat} {s t u : State} (h : State.Apart q s t) (k : State.Apart q t u) :
    State.Apart q s u where
  store := k.store.trans h.store
  waitList := k.waitList.trans h.waitList
  others j hj := (k.others j hj).trans (h.others j hj)
  claims e := (k.claims e).trans (h.claims e)
  trans e h1 h2 := by
    have hrow : t.rrow q = s.rrow q := by rw [State.rrow, h.store, State.rrow]
    exact (k.trans e (hrow ▸ h1) (hrow ▸ h2)).trans (h.trans e h1 h2)
  ctx c x hx := by
    obtain ⟨y, hy, hxy⟩ := k.ctx c x hx
    obtain ⟨z, hz, hyz⟩ := h.ctx c y hy
    exact ⟨z, hz, hxy.trans hyz⟩

theorem State.send_apart (s : State) (q : Nat) (p : Port) (x : Telegram) : State.Apart q s (s.send p x) :=
  ⟨rfl, rfl, fun _ _ => rfl, fun _ => le_refl _, fun _ _ _ => rfl, fun _ x h => ⟨x, h, rfl⟩⟩

/-- A change of the transaction of a route's start or destination. -/
theorem State.setTrans_apart (s : State) {q e : Nat} (x : TransRec) (he : e = (s.rrow q).start ∨ e = (s.rrow q).dest) :
    State.Apart q s (s.setTrans e x) := by
  refine ⟨rfl, rfl, fun _ _ => rfl, fun _ => le_refl _, fun k h1 h2 => ?_, fun _ x h => ⟨x, h, rfl⟩⟩
  refine (State.transOf_setTrans s e k x).trans (if_neg ?_)
  rintro rfl
  exact he.elim h1 h2

theorem State.setRoute_apart (s : State) (q : Nat) (w : RouteRec) : State.Apart q s (s.setRoute q w) :=
  ⟨rfl, rfl, fun k hk => (State.route_setRoute s q k w).trans (if_neg hk), fun _ => le_refl _, fun _ _ _ => rfl,
    fun _ x h => ⟨x, h, rfl⟩⟩

theorem State.modRoute_apart (s : State) (q : Nat) (f : RouteRec → RouteRec) : State.Apart q s (s.modRoute q f) :=
  s.setRoute_apart q _

/-- A context is freed, or keeps its route. -/
theorem State.setCtx_apart (s : State) (q c : Nat) (x : Option Ctx)
    (hx : ∀ z, x = some z → ∃ y, s.ctx c = some y ∧ z.route = y.route) : State.Apart q s (s.setCtx c x) := by
  refine ⟨rfl, rfl, fun _ _ => rfl, fun _ => le_refl _, fun _ _ _ => rfl, fun k z hz => ?_⟩
  rw [State.ctx_setCtx] at hz
  split at hz
  · next hk => exact hk ▸ hx z hz
  · exact ⟨z, hz, rfl⟩

theorem State.freeCtx_apart (s : State) (q c : Nat) : State.Apart q s (s.freeCtx c) := by
  have h := s.setCtx_apart q c none nofun
  exact ⟨h.store, h.waitList, h.others, h.claims, h.trans, h.ctx⟩

/-- What touches no transaction and no context stands apart as it stands aside. -/
theorem State.Aside.apart {q : Nat} {s t : State} (h : State.Aside q s t) (hframe : t = { s with
      elems := t.elems, routes := t.routes }) (hroute : ∀ k, k ≠ q → t.route k = s.route k) : State.Apart q s t := by
  have hkept : t.waitList = s.waitList ∧ t.ctx = s.ctx ∧ t.transOf = s.transOf := by
    rw [hframe]
    exact ⟨rfl, rfl, rfl⟩
  obtain ⟨hwait, hctx, htrans⟩ := hkept
  exact ⟨h.store, hwait, hroute, h.claims, fun e _ _ => congrFun htrans e, fun c x hx => ⟨x, hctx ▸ hx, rfl⟩⟩

theorem State.unlockAll_apart (s : State) (q : Nat) : State.Apart q s (s.unlockAll q) := by
  obtain ⟨-, -, hroute⟩ := s.unlockAll_others q
  have hframe : s.unlockAll q = { s with elems := (s.unlockAll q).elems } := State.foldl_unlock_frame _ s
  have hframe' : s.unlockAll q = { s with elems := (s.unlockAll q).elems, routes := (s.unlockAll q).routes } := by
    have hr : (s.unlockAll q).routes = s.routes := by rw [hframe]
    rw [hr]
    exact hframe
  exact (s.unlockAll_aside q).apart hframe' fun k _ => congrFun hroute k

theorem State.dropClaims_apart (s : State) (q : Nat) (p : FlankRec → Bool) : State.Apart q s (s.dropClaims q p) := by
  obtain ⟨-, -, hroute⟩ := s.dropClaims_others q p
  exact (s.dropClaims_aside q p).apart (s.dropClaims_frames q p) fun k hk => (hroute k).trans (if_neg hk)

/-! ### Contexts -/

theorem Ev.sendWithdraw_apart (ev : Ev) (q : Nat) (l : Link) (ref : Byte) (x : Reason) :
    State.Apart q ev.s (ev.sendWithdraw l (ev.s.rrow q).dest ref x).s :=
  (ev.s.send_apart q l.port _).trans' (State.setTrans_apart _ {} (.inr rfl))

theorem Ev.withdrawOffer_apart (ev : Ev) (q : Nat) (o : Option Byte) (x : Reason) :
    State.Apart q ev.s (ev.withdrawOffer o (ev.s.rrow q).dest x).s := by
  unfold Ev.withdrawOffer
  split
  · split
    · exact ev.sendWithdraw_apart q _ _ x
    · exact ev.sendWithdraw_apart q _ _ x
    · exact .refl q _
  · exact .refl q _

theorem State.releaseSetting_apart (s : State) (c q : Nat) : State.Apart q s (s.releaseSetting c q) :=
  (((s.unlockAll_apart q).trans' (State.dropClaims_apart _ q (fun _ => true))).trans'
    (State.setRoute_apart _ q {})).trans' (State.freeCtx_apart _ q c)

theorem State.Apart.of_sent {q : Nat} {s t : State} {l : List Sent} (h : t = { s with sent := l }) : State.Apart q s t := by
  rw [h]
  exact ⟨rfl, rfl, fun _ _ => rfl, fun _ => le_refl _, fun _ _ _ => rfl, fun _ x hx => ⟨x, hx, rfl⟩⟩

theorem Ev.failCtx_apart {ev : Ev} {c : Nat} {x : Ctx} (hx : ev.s.ctx c = some x) (reason : Reason) (named : Nat) (d : Bool) :
    State.Apart x.route ev.s (ev.failCtx c reason named d).s := by
  have h := ev.withdrawOffer_apart x.route x.offerRef reason
  rw [Ev.failCtx_eq _ _ _ _ hx]
  generalize ev.withdrawOffer x.offerRef (ev.s.rrow x.route).dest reason = w at h
  have hr := h.trans' (w.s.releaseSetting_apart c x.route)
  dsimp only
  split
  · exact hr.trans' (.of_sent (Ev.refuse_s (w.on (fun s => s.releaseSetting c x.route)) _ _ _ _))
  · exact hr

theorem Ev.completeCtx_apart {ev : Ev} {c : Nat} {x : Ctx} (hx : ev.s.ctx c = some x) :
    State.Apart x.route ev.s (ev.completeCtx c).s := by
  have h : State.Apart x.route ev.s ((ev.s.freeCtx c).modRoute x.route (fun w =>
      { w with state := .locked, context := none, clearWanted := true })) :=
    (State.freeCtx_apart _ _ _).trans' (State.modRoute_apart _ _ _)
  unfold Ev.completeCtx
  rw [hx]
  dsimp only
  split
  · exact h.trans' ((State.send_apart _ _ _ _).trans' (State.setTrans_apart _ _ (.inl rfl)))
  · exact h

theorem Ev.completeIfDone_apart {ev : Ev} {c : Nat} {x : Ctx} (hx : ev.s.ctx c = some x) :
    State.Apart x.route ev.s (ev.completeIfDone c).s := by
  unfold Ev.completeIfDone
  rw [hx]
  dsimp only
  split
  · exact Ev.completeCtx_apart hx
  · exact .refl _ _

theorem Ev.handToCtx_apart {ev : Ev} {c : Nat} {x : Ctx} (hx : ev.s.ctx c = some x) (changed : List Nat) :
    State.Apart x.route ev.s (ev.handToCtx changed c).s := by
  unfold Ev.handToCtx
  rw [hx]
  dsimp only
  split
  · exact Ev.failCtx_apart hx _ _ _
  · split
    · exact .refl _ _
    · generalize x.awaited.filter (fun a => !(changed.contains a.elem && ev.s.atSide a.elem a.side)) = rest
      have h := ev.s.setCtx_apart x.route c (some { x with awaited := rest })
        (fun z hz => ⟨x, hx, by rw [← Option.some.inj hz]⟩)
      have hc : (ev.s.setCtx c (some { x with awaited := rest })).ctx c = some { x with awaited := rest } :=
        (State.ctx_setCtx ev.s c c _).trans (if_pos rfl)
      exact h.trans' (Ev.completeIfDone_apart
        (ev := ev.on (fun s => s.setCtx c (some { x with awaited := rest }))) (x := { x with awaited := rest }) hc)

/-! ### A route that no context names -/

/-- The contexts that stand are among those before the event, with their routes. -/
def State.CtxsOf (s t : State) : Prop := ∀ c x, t.ctx c = some x → ∃ y, s.ctx c = some y ∧ x.route = y.route

section

variable {s v : State} {r : Nat}

/-- What the context of another route does leaves where a route in IN_USE stands. -/
theorem State.Behind.apart {t u : State} {q : Nat} (ht : s.Behind v r t) (hs : s.SameTables t) (hq : r ≠ q)
    (hhanded : HandedOn t u) (k : State.Apart q t u)
    (hdest : s.Alone r → (s.rrow q).start ≠ (s.rrow r).dest ∧ (s.rrow q).dest ≠ (s.rrow r).dest) : s.Behind v r u := by
  have hself := k.others r hq
  refine ht.beside hhanded (congrArg RouteRec.noTimer hself) (fun w hw => ht.waits w (k.waitList ▸ hw)) k.claims
    fun halone ⟨h1, h2⟩ => ?_
  obtain ⟨hstart, hdest⟩ := hdest halone
  refine ⟨(k.trans _ (hs.rrow ▸ hstart.symm) (hs.rrow ▸ hdest.symm)).trans h1, fun j hj hnj => ?_⟩
  by_cases hjq : j = q
  · exact hjq ▸ hdest
  · exact h2 j hj (k.others j hjq ▸ hnj)

/-- Where a route in IN_USE stands before the Route Monitor acts: no context names it, and its record is as before the
event. -/
structure State.Untouched (s v : State) (r : Nat) (t : State) : Prop where
  stands : s.Behind v r t
  route : t.route r = s.route r
  ctx : s.CtxsOf t

theorem Ev.handToCtx_untouched {b : Ev} (hb : s.Untouched v r b.s) (hs : s.SameTables v)
    (hnone : ∀ c x, s.ctx c = some x → x.route ≠ r) (changed : List Nat) (c : Nat) :
    s.Untouched v r (b.handToCtx changed c).s := by
  cases hx : b.s.ctx c with
  | none =>
    have he : b.handToCtx changed c = b := by
      unfold Ev.handToCtx
      rw [hx]
    rw [he]
    exact hb
  | some x =>
    obtain ⟨y, hy, hxy⟩ := hb.ctx c x hx
    have hq : r ≠ x.route := hxy ▸ (hnone c y hy).symm
    have k := Ev.handToCtx_apart hx changed
    refine ⟨hb.stands.apart (hs.trans hb.stands.handed.sameTables) hq (b.handToCtx_handedOn changed c) k fun h => ?_,
      (k.others r hq).trans hb.route, fun c' z hz => ?_⟩
    · rw [hxy]
      exact h.1 c y hy
    · obtain ⟨w, hw, hzw⟩ := k.ctx c' z hz
      obtain ⟨u, hu, hwu⟩ := hb.ctx c' w hw
      exact ⟨u, hu, hzw.trans hwu⟩

theorem Ev.handToSetting_untouched {b : Ev} (hb : s.Untouched v r b.s) (hs : s.SameTables v)
    (hnone : ∀ c x, s.ctx c = some x → x.route ≠ r) : s.Untouched v r b.handToSetting.s := by
  have hfold (changed : List Nat) (l : List Nat) (a : Ev) (ha : s.Untouched v r a.s) :
      s.Untouched v r (l.foldl (fun ev c => ev.handToCtx changed c) a).s := by
    induction l generalizing a with
    | nil => exact ha
    | cons c l ih => exact ih (a.handToCtx changed c) (Ev.handToCtx_untouched ha hs hnone changed c)
  exact hfold (changedElems b.before b.s) contextNumbers b hb

/-- Before the Route Monitor acts no group that is due has been released. -/
theorem State.Untouched.behind {b : Ev} (hb : s.Untouched v r b.s) (hbefore : b.before = s) : b.Behind s v r := by
  have hnot (h : Nat) (hd : Claims.releaseDue s v r h) (hr : (b.s.route r).groupState h = .released) : False := by
    obtain ⟨hseen, -⟩ := hd
    rw [hb.route, hseen] at hr
    cases hr
  exact ⟨hbefore, hb.stands, fun h _ _ hd hr => (hnot h hd hr).elim, fun h _ _ hd hr => (hnot h hd hr).elim⟩

end

end Sys2Proof.Machine

/-! PROOF SUPPORT. A route with a group that is due is reached by the event (R6, R113, R129, R130). -/

namespace Sys2Proof.Machine

section

variable {s t : State}

/-- An element one of whose conditions changes is handed on (R4, R6). -/
theorem State.SameTables.mem_changedElems (h : s.SameTables t) {e : Nat} {c : Cond} (hne : t.holds e c ≠ s.holds e c) :
    e ∈ changedElems s t := by
  have hview : s.handView e ≠ t.handView e := fun hv => hne (State.holds_congr h.1 h.2 e hv c)
  cases hk : t.kind e with
  | none =>
    have hk' : s.kind e = none := h.kind ▸ hk
    rw [State.holds_of_no_kind hk, State.holds_of_no_kind hk'] at hne
    exact absurd rfl hne
  | some k => exact List.mem_filter.2 ⟨State.mem_elemIndices_of_kind hk, bne_iff_ne.2 hview⟩

theorem State.SameTables.mem_changedElems_of_clear (h : s.SameTables t) {e : Nat} (hne : t.clearOf e ≠ s.clearOf e) :
    e ∈ changedElems s t := by
  by_cases hc : t.holds e .inControl = s.holds e .inControl
  · refine h.mem_changedElems (c := .vacant) fun hv => hne ?_
    rw [State.clearOf, hc, hv, State.clearOf]
  · exact h.mem_changedElems hc

theorem State.namesElem_of_path {r : Nat} {x : ListRow} (hx : x ∈ t.pathSections r) : t.namesElem r x.target = true := by
  have hpath : (pathOf t.store (t.rrow r)).any (fun y => y.target == x.target) = true :=
    List.any_eq_true.2 ⟨x, (List.mem_filter.1 hx).1, beq_self_eq_true _⟩
  unfold State.namesElem
  dsimp only
  rw [hpath]
  simp only [Bool.or_true, Bool.true_or]

theorem State.namesElem_of_berth (r : Nat) : t.namesElem r (t.rrow r).berth = true := by
  unfold State.namesElem
  simp only [beq_self_eq_true, Bool.or_true, Bool.true_or]

/-- A group that becomes VACANT does so by a change of one of its sections. -/
theorem State.SameTables.changed_of_vacated (h : s.SameTables t) {r g : Nat} (hs : s.groupVacant r g = false)
    (ht : t.groupVacant r g = true) : ∃ e ∈ changedElems s t, t.namesElem r e = true := by
  unfold State.groupVacant at hs ht
  rw [List.all_eq_false] at hs
  obtain ⟨x, hx, hclear⟩ := hs
  rw [← h.pathSections] at hx
  refine ⟨x.target, h.mem_changedElems_of_clear fun he => hclear ?_, State.namesElem_of_path (List.mem_filter.1 hx).1⟩
  rw [← he]
  exact List.all_eq_true.1 ht x hx

/-- A group that is due at an event names an element that the event changes. -/
theorem State.SameTables.changed_of_due (h : s.SameTables t) {r g : Nat} (hd : Claims.releaseDue s t r g) :
    ∃ e ∈ changedElems s t, t.namesElem r e = true := by
  obtain ⟨-, hvacant, hnext⟩ := hd
  split at hnext
  · rcases hnext with ⟨-, hs⟩ | ⟨-, x, hx, -, -, hs, ht⟩
    · exact h.changed_of_vacated hs hvacant
    · rw [← h.pathSections] at hx
      exact ⟨x.target, h.mem_changedElems (c := .occupied) (by rw [hs, ht]; decide), State.namesElem_of_path hx⟩
  · obtain ⟨hberth, hs | hs⟩ := hnext
    · exact h.changed_of_vacated hs hvacant
    · refine ⟨(s.rrow r).berth, h.mem_changedElems (c := .occupied) (by rw [hs, hberth]; decide), ?_⟩
      rw [← h.rrow]
      exact State.namesElem_of_berth r

end

/-- The Route Monitor reaches a route in IN_USE with a group that is due. -/
theorem Ev.Behind.reached {s v : State} {r g : Nat} {b : Ev} (hb : b.Behind s v r) (hs : s.SameTables v)
    (hd : Claims.releaseDue s v r g) : r ∈ b.reachedRoutes := by
  have hstate := hb.stands.state
  obtain ⟨e, he, hnames⟩ := (hs.trans hb.stands.handed.sameTables).changed_of_due
    ((hb.stands.handed.releaseDue s r g).2 hd)
  refine List.mem_filter.2 ⟨b.s.mem_activeRoutes r (by rw [hstate]; decide), ?_⟩
  rw [hstate, hb.before, List.any_eq_true.2 ⟨e, he, hnames⟩, Bool.or_true, Bool.true_or]
  rfl

end Sys2Proof.Machine

/-! PROOF SUPPORT. A route in IN_USE at the end of an event (R127 to R134). -/

namespace Sys2Proof.Machine

section

variable {s : State} {ev : Ev} {r : Nat}

/-- After the Route Monitor's part of an event a route in IN_USE is settled where a group of it is due. -/
theorem State.Untouched.after (hu : s.Untouched ev.s r ev.s) (hbefore : ev.before = s) (hs : s.SameTables ev.s)
    (hnone : ∀ c x, s.ctx c = some x → x.route ≠ r) (hG : 1 ≤ (s.rrow r).groups) :
    (ev.handToSetting.monitor.Behind s ev.s r ∨ ev.handToSetting.monitor.Over s ev.s r) ∧
      ∀ g, Claims.releaseDue s ev.s r g → ev.handToSetting.monitor.Served s ev.s r := by
  have hin : (s.route r).state = .inUse := hu.route ▸ hu.stands.state
  have hb := (Ev.handToSetting_untouched hu hs hnone).behind (ev.handToSetting_before.trans hbefore)
  obtain ⟨h1, h2⟩ := hb.monitor hs hin hG
  refine ⟨?_, fun g hd => h1 (hb.reached hs hd)⟩
  by_cases hr : r ∈ ev.handToSetting.reachedRoutes
  · exact (h1 hr).imp_left fun h => h.1
  · exact .inl (h2 hr)

/-- A group that is OCCUPIED_SEEN before the event and not due keeps its state, and the route stays IN_USE. -/
theorem Ev.Behind.kept {v : State} {b : Ev} {g : Nat} (hb : b.Behind s v r) (hg : 1 ≤ g)
    (hseen : (s.route r).groupState g = .seen) (hd : ¬ Claims.releaseDue s v r g) :
    (b.s.route r).groupState g = .seen ∧ (b.s.route r).state = .inUse := by
  refine ⟨?_, hb.stands.state⟩
  rcases hb.stands.groups g hg with h | ⟨h, -⟩ | ⟨-, h⟩
  · exact h.trans hseen
  · rw [hseen] at h
    cases h
  · exact absurd h hd

theorem Ev.Over.not_kept {v : State} {b : Ev} {g : Nat} (hb : b.Over s v r) (hg : 1 ≤ g) (hl : g ≤ (s.rrow r).groups)
    (hseen : (s.route r).groupState g = .seen) (hd : ¬ Claims.releaseDue s v r g) : False := by
  rcases hb.last g hg hl with h | h
  · rw [hseen] at h
    cases h
  · exact hd h

theorem Ev.Served.gone {v : State} {b : Ev} {g : Nat} (hb : b.Served s v r) (hg : 1 ≤ g) (hl : g ≤ (s.rrow r).groups)
    (hd : Claims.releaseDue s v r g) : s.Gone r g b.s ∧ ∃ d k, b.raised .route (s.groupReport r (.groupReleased g) d k) := by
  rcases hb with ⟨hb, hdue⟩ | hb
  · have hr := hdue g hg hl hd
    exact ⟨hb.stands.gone g hg hl hd hr, hb.raised g hg hl hd hr⟩
  · exact ⟨hb.gone g hg hl hd, hb.raised g hg hl hd⟩

theorem Ev.Served.more {v : State} {b : Ev} {g : Nat} (hb : b.Served s v r) (hg : 1 ≤ g) (hl : g ≤ (s.rrow r).groups)
    (hd : Claims.releaseDue s v r g) (hmore : ¬ s.allGone v r) :
    (b.s.route r).state = .inUse ∧ (b.s.route r).groupState g = .released := by
  rcases hb with ⟨hb, hdue⟩ | hb
  · exact ⟨hb.stands.state, hdue g hg hl hd⟩
  · exact absurd hb.last hmore

theorem Ev.Served.over {v : State} {b : Ev} {g : Nat} (hb : b.Served s v r) (hg : 1 ≤ g) (hl : g ≤ (s.rrow r).groups)
    (hd : Claims.releaseDue s v r g) (hlast : s.allGone v r) : b.Over s v r := by
  rcases hb with ⟨hb, hdue⟩ | hb
  · exact absurd hlast (hb.more g hg hl hd (hdue g hg hl hd))
  · exact hb

/-- The telegrams of the Route Monitor's part are among those of the event. -/
theorem Ev.settle_sent_of_monitor (ev : Ev) (hsent : s.sent <+: ev.s.sent) {x : Sent}
    (hx : x ∈ ev.handToSetting.monitor.s.sent.drop ev.s.sent.length) : x ∈ ev.settle.sent.drop s.sent.length := by
  have hmore : ev.handToSetting.monitor.s.sent <+: ev.settle.sent := by
    rw [Ev.settle_sendChanges]
    exact (Ev.sendChanges_handedOn _).sent
  have hdrop := (hmore.drop ev.s.sent.length).subset hx
  have hlen : ev.s.sent.length = s.sent.length + (ev.s.sent.length - s.sent.length) := by
    have := hsent.length_le
    omega
  rw [hlen, ← List.drop_drop] at hdrop
  exact List.drop_subset _ _ hdrop

end

end Sys2Proof.Machine

/-! PROOF SUPPORT. What a Status Telegram and a Border Status leave before the end of their events (R7 to R10, R26, R34,
R139). -/

namespace Sys2Proof.Machine

/-- What the telegrams of this file keep: the tables, the routes, the contexts, the wait list, the transactions, the claims
and every telegram sent before. -/
structure State.Heads (s v : State) : Prop where
  tables : s.SameTables v
  routes : v.routes = s.routes
  contexts : v.contexts = s.contexts
  waitList : v.waitList = s.waitList
  trans : v.trans = s.trans
  claims : ∀ e, (v.elem e).claims = (s.elem e).claims
  sent : s.sent <+: v.sent

theorem State.Heads.refl (s : State) : s.Heads s :=
  ⟨⟨rfl, rfl⟩, rfl, rfl, rfl, rfl, fun _ => rfl, List.prefix_rfl⟩

theorem State.Heads.trans' {s t u : State} (h : s.Heads t) (k : t.Heads u) : s.Heads u where
  tables := h.tables.trans k.tables
  routes := k.routes.trans h.routes
  contexts := k.contexts.trans h.contexts
  waitList := k.waitList.trans h.waitList
  trans := k.trans.trans h.trans
  claims e := (k.claims e).trans (h.claims e)
  sent := h.sent.trans k.sent

/-- A fold of operations that each keep this keeps it. -/
theorem State.Heads.foldl {α β : Type} (p : β → State) (f : β → α → β) (h : ∀ b a, (p b).Heads (p (f b a)))
    (l : List α) (b : β) : (p b).Heads (p (l.foldl f b)) := by
  induction l generalizing b with
  | nil => exact .refl _
  | cons a l ih => exact (h b a).trans' (ih (f b a))

theorem State.modElem_heads (s : State) (e : Nat) (f : Elem → Elem) (h : ∀ x, (f x).claims = x.claims) :
    s.Heads (s.modElem e f) := by
  refine ⟨⟨rfl, rfl⟩, rfl, rfl, rfl, rfl, fun k => ?_, List.prefix_rfl⟩
  rw [State.elem_modElem]
  split
  · next hk => rw [h, hk]
  · rfl

theorem State.setLink_heads (s : State) (p : Port) (x : LinkRec) : s.Heads (s.setLink p x) := by
  cases p <;> exact ⟨⟨rfl, rfl⟩, rfl, rfl, rfl, rfl, fun _ => rfl, List.prefix_rfl⟩

theorem State.send_heads (s : State) (p : Port) (x : Telegram) : s.Heads (s.send p x) :=
  ⟨⟨rfl, rfl⟩, rfl, rfl, rfl, rfl, fun _ => rfl, List.prefix_append _ _⟩

theorem Ev.start_heads (s : State) : s.Heads (Ev.start s).s :=
  ⟨⟨rfl, rfl⟩, rfl, rfl, rfl, rfl, fun _ => rfl, List.prefix_rfl⟩

/-! ### The link watch -/

theorem State.resend_heads (s : State) (l : Link) (e : Nat) : s.Heads (s.resend l e) := by
  unfold State.resend
  split
  · exact .refl s
  · split
    · exact s.send_heads _ _
    · exact .refl s

theorem State.borderLinkUp_heads (s : State) (l : Link) : s.Heads (s.borderLinkUp l) :=
  (s.send_heads l.port _).trans' (State.Heads.foldl id _ (fun t e => t.resend_heads l e) (s.linkElems l) _)

theorem Ev.validTelegram_heads (ev : Ev) (p : Port) :
    (ev.validTelegram p).before = ev.before ∧ ev.s.Heads (ev.validTelegram p).s := by
  unfold Ev.validTelegram
  dsimp only
  split
  · exact ⟨rfl, ev.s.setLink_heads p _⟩
  · split
    · exact ⟨rfl, ev.s.setLink_heads p _⟩
    · split
      · exact ⟨rfl, (ev.s.setLink_heads p _).trans' (State.borderLinkUp_heads _ _)⟩
      · exact ⟨rfl, ev.s.setLink_heads p _⟩

theorem Ev.invalidTelegram_heads (ev : Ev) (p : Port) :
    (ev.invalidTelegram p).before = ev.before ∧ ev.s.Heads (ev.invalidTelegram p).s := by
  unfold Ev.invalidTelegram
  dsimp only
  split
  · exact ⟨rfl, .refl _⟩
  · exact ⟨rfl, ev.s.setLink_heads p _⟩

/-! ### Status Telegrams -/

/-- An event step that keeps the state before the event, and of the state what the telegrams of this file keep. -/
def Ev.Heading (a b : Ev) : Prop := b.before = a.before ∧ a.s.Heads b.s

theorem Ev.Heading.trans {a b c : Ev} (h : a.Heading b) (k : b.Heading c) : a.Heading c :=
  ⟨k.1.trans h.1, h.2.trans' k.2⟩

theorem Ev.Heading.refl (a : Ev) : a.Heading a := ⟨rfl, .refl _⟩

theorem Ev.modElem_heading (ev : Ev) (e : Nat) (f : Elem → Elem) (h : ∀ x, (f x).claims = x.claims) :
    ev.Heading (ev.on (fun s => s.modElem e f)) := ⟨rfl, ev.s.modElem_heads e f h⟩

theorem Ev.elementFault_heading (ev : Ev) (cls : Latch) (e : Nat) (cause : Half) :
    ev.Heading (ev.elementFault cls e cause) :=
  ⟨rfl, ⟨rfl, rfl⟩, rfl, rfl, rfl, rfl, fun _ => rfl, List.prefix_rfl⟩

theorem Ev.applyPoint_heading (ev : Ev) (e : Nat) (x : Reported) (t : Byte) : ev.Heading (ev.applyPoint e x t) := by
  have hreport : ev.Heading (ev.on (fun s => s.reportPoint e x t)) := ev.modElem_heading e _ fun _ => rfl
  unfold Ev.applyPoint
  dsimp only
  generalize ev.on (fun s => s.reportPoint e x t) = b at hreport
  split
  · exact hreport
  · split
    · split
      · have hend := b.modElem_heading e (fun r => { r with watch := none, fault := false }) fun _ => rfl
        unfold Ev.endThrow
        dsimp only
        split
        · exact (hreport.trans hend).trans (Ev.elementFault_heading _ _ _ _)
        · exact hreport.trans hend
      · exact hreport.trans (b.modElem_heading e _ fun _ => rfl)
    · split
      · unfold Ev.uncommanded
        split
        · exact hreport
        · exact (hreport.trans (b.modElem_heading e (fun r => { r with fault := true }) fun _ => rfl)).trans
            (Ev.elementFault_heading _ _ _ _)
      · exact hreport

theorem Ev.applySlot_heading (ev : Ev) (e : Nat) (code t : Byte) : ev.Heading (ev.applySlot e code t) := by
  unfold Ev.applySlot
  split
  · exact ev.applyPoint_heading e _ t
  · refine ev.modElem_heading e _ fun x => ?_
    split <;> rfl
  · exact ev.modElem_heading e _ fun _ => rfl
  · exact .refl ev

theorem Ev.Heading.foldl {α : Type} (f : Ev → α → Ev) (h : ∀ b a, Ev.Heading b (f b a)) (l : List α) (b : Ev) :
    b.Heading (l.foldl f b) := by
  induction l generalizing b with
  | nil => exact .refl b
  | cons a l ih => exact (h b a).trans (ih (f b a))

theorem State.renew_heads (s : State) (e : Nat) : s.Heads (s.renew e) := s.modElem_heads e _ fun _ => rfl

theorem State.setLife_heads (s : State) (fec : Nat) (x : Option Byte) : s.Heads (s.setLife fec x) :=
  ⟨⟨rfl, rfl⟩, rfl, rfl, rfl, rfl, fun _ => rfl, List.prefix_rfl⟩

theorem Ev.applySlotOf_heading (p : List Byte) (ev : Ev) (slot : Nat) : ev.Heading (ev.applySlotOf p slot) := by
  unfold Ev.applySlotOf
  split
  · exact ev.applySlot_heading _ _ _
  · exact .refl ev

theorem Ev.on_heading (ev : Ev) (f : State → State) (h : ev.s.Heads (f ev.s)) : ev.Heading (ev.on f) := ⟨rfl, h⟩

theorem Ev.applyStatus_heading (ev : Ev) (p : List Byte) : ev.Heading (ev.applyStatus p) := by
  have hlife := ev.on_heading (fun s => s.setLife (byteAt p 0).toNat (some (byteAt p 1))) (ev.s.setLife_heads _ _)
  have hslots : ev.Heading (ev.applySlots p) := hlife.trans (Ev.Heading.foldl _ (Ev.applySlotOf_heading p) _ _)
  rw [Ev.applyStatus_eq]
  generalize ev.applySlots p = b at hslots
  exact hslots.trans (b.on_heading _ (State.Heads.foldl id _ State.renew_heads (b.s.fecElems (byteAt p 0).toNat) b.s))

theorem Ev.statusJudged_heading (ev : Ev) (p : List Byte) : ev.Heading (ev.statusJudged p) := by
  unfold Ev.statusJudged
  dsimp only
  split
  · exact ev.applyStatus_heading p
  · exact .refl ev

/-! ### Border Status -/

theorem State.applyEntry_heads (s : State) (l : Link) (x : EntryIn) : s.Heads (s.applyEntry l x) := by
  unfold State.applyEntry
  split
  · exact s.modElem_heads _ _ fun _ => rfl
  · exact .refl s

theorem Ev.borderStatus_heading (ev : Ev) (l : Link) (p : List Byte) : ev.Heading (ev.borderStatus l p) := by
  unfold Ev.borderStatus
  split
  · exact ⟨rfl, State.Heads.foldl id _ (fun t x => t.applyEntry_heads l x) (statusEntries p) ev.s⟩
  · exact .refl ev

/-- The event of a Status Telegram or a Border Status, as its end finds it. -/
theorem exec_heads {i : Instr} {s : State} (h : (∃ bytes, i = .statusTelegram bytes) ∨ ∃ l p, i = .borderStatus l p) :
    ∃ ev : Ev, exec i s = .next ev.settle ∧ ev.before = s ∧ s.Heads ev.s := by
  have hstart : s.Heads (Ev.start s).s := Ev.start_heads s
  have hvalid (p : Port) : (Ev.start s).Heading ((Ev.start s).validTelegram p) := Ev.validTelegram_heads _ p
  have hinvalid (p : Port) : (Ev.start s).Heading ((Ev.start s).invalidTelegram p) := Ev.invalidTelegram_heads _ p
  have htake (ev : Ev) (hev : (Ev.start s).Heading ev) : ev.before = s ∧ s.Heads ev.s :=
    ⟨hev.1, hstart.trans' hev.2⟩
  rcases h with ⟨bytes, rfl⟩ | ⟨l, p, rfl⟩
  · change ∃ ev : Ev, Host.Outcome.next (takeStatusTelegram bytes s) = .next ev.settle ∧ _
    unfold takeStatusTelegram
    split
    · exact ⟨_, rfl, htake _ (hinvalid .f)⟩
    · exact ⟨_, rfl, htake _ ((hvalid .f).trans (Ev.statusJudged_heading _ _))⟩
  · change ∃ ev : Ev, Host.Outcome.next (takeBorderStatus l p s) = .next ev.settle ∧ _
    unfold takeBorderStatus takeBorder
    split
    · exact ⟨_, rfl, htake _ ((hvalid l.port).trans (Ev.borderStatus_heading _ l p))⟩
    · exact ⟨_, rfl, htake _ (hinvalid l.port)⟩

/-- A route in IN_USE that no context and no wait list names, at the end of such an event. -/
theorem State.Heads.untouched {s v : State} (h : s.Heads v) {r : Nat} (hstate : (s.route r).state = .inUse)
    (hwaits : s.NotWaiting r) (hlength : (s.route r).groups.length = (s.rrow r).groups) : s.Untouched v r v := by
  have hroute : v.route = s.route := by
    funext k
    exact congrArg (fun x => tblGet ({} : RouteRec) x k) h.routes
  have hctx : v.ctx = s.ctx := by
    funext k
    exact congrArg (fun x => tblGet (none : Option Ctx) x k) h.contexts
  have htrans : v.transOf = s.transOf := State.transOf_congr h.trans
  refine ⟨?_, congrFun hroute r, fun c x hx => ⟨x, by rw [← hctx]; exact hx, rfl⟩⟩
  exact {
    handed := .refl v
    state := by rw [hroute]; exact hstate
    origin := by rw [hroute]
    length := by rw [hroute]; exact hlength
    waits := fun w hw => hwaits w (h.waitList ▸ hw)
    groups := fun g _ => .inl (by rw [hroute])
    claims := fun e => le_of_eq (h.claims e)
    flank := fun _ _ _ _ => by rw [hroute]
    overlap := fun f hf _ => by rw [hroute]; exact hf
    gone := fun g _ _ hd hr => by
      obtain ⟨hseen, -⟩ := hd
      rw [hroute, hseen] at hr
      cases hr
    border := fun halone => ⟨by rw [htrans], fun q hq hn => halone.2 q hq (by rw [← hroute]; exact hn)⟩ }

end Sys2Proof.Machine

section

open Sys2Proof Sys2Proof.Machine

/-- A route in IN_USE through the events of a Status Telegram and of a Border Status: it stands as before, or its due groups
have gone, or all have. -/
theorem groupsAreReleasedBehindTrain : Claims.GroupsAreReleasedBehindTrain := by
  intro i s hi
  obtain ⟨ev, hexec, hbefore, hheads⟩ := exec_heads hi
  refine ⟨ev, hexec, hbefore, fun r g hstate hnone hwaits hlength hg hl => ?_⟩
  have hG : 1 ≤ (s.rrow r).groups := hg.trans hl
  obtain ⟨hstands, hserved⟩ :=
    (hheads.untouched hstate hwaits hlength).after hbefore hheads.tables hnone hG
  have hdue := fun h => (ev.settle_handedOn).releaseDue s r h
  have hlast : (∀ h, 1 ≤ h → h ≤ (s.rrow r).groups →
      (s.route r).groupState h = .released ∨ Claims.releaseDue s ev.settle r h) ↔ s.allGone ev.s r := by
    unfold State.allGone
    simp only [hdue]
  have hsent (x : Sent) := ev.settle_sent_of_monitor hheads.sent (x := x)
  have hrecord : ∀ k, ev.settle.route k = ev.handToSetting.monitor.s.route k := ev.settle_route
  have helem : ∀ e, ev.settle.elem e = ev.handToSetting.monitor.s.elem e := ev.settle_elem
  have htrans : ∀ e, ev.settle.transOf e = ev.handToSetting.monitor.s.transOf e := ev.settle_transOf
  dsimp only
  rw [hlast, hdue g, hrecord r]
  simp only [helem, htrans]
  generalize ev.handToSetting.monitor = b at *
  refine ⟨fun hseen hd => ?_, fun hd => ?_⟩
  · rcases hstands with hb | hb
    · exact hb.kept hg hseen hd
    · exact (hb.not_kept hg hl hseen hd).elim
  · have hb := hserved g hd
    obtain ⟨hgone, hraised⟩ := hb.gone hg hl hd
    refine ⟨hgone.unlocked, hgone.dropped, hgone.flank, hraised, hb.more hg hl hd, fun hall ho => ?_, fun hall ho => ?_⟩
    · obtain ⟨hroute, -, hunlocked, hreleased, hborder⟩ := (hb.over hg hl hd hall).freed ho
      refine ⟨hroute, hunlocked, hreleased, fun l ref hk hlink hheld href hctx hother => ?_⟩
      obtain ⟨hidle, hback⟩ := hborder ⟨hctx, hother⟩ l ref hk hlink hheld href
      exact ⟨hidle, hsent _ hback⟩
    · obtain ⟨hheld, ⟨-, hpurpose, htimed⟩, hgroups, hoverlap⟩ := (hb.over hg hl hd hall).held ho
      exact ⟨hheld, hpurpose, htimed, hgroups, hoverlap⟩

/-- Settles O58: the release of one group read off its operations, and the evaluation of the route behind its train. -/
theorem groupReleaseUnlocksItsElements : Obligations.GroupReleaseUnlocksItsElements :=
  ⟨groupReleaseUnlocksElements, groupsAreReleasedBehindTrain⟩

end
